-- ==== Sys2Proof/Word.lean ====
section
/-! DEFINITION. The 16-bit word every register, latch and memory cell holds (00_scope.md R5, R7), and the
register numbers (10_state.md R20). -/

namespace Sys2Proof

/-- A register, latch, memory cell or instruction: 16 bits (R5, R7). -/
abbrev Word := BitVec 16

/-- The number of a general register, R0 to R7 (R20). -/
abbrev Reg := Fin 8

/-- One memory cell: its word address and the 16-bit word it holds (20_memory.md R50). -/
abbrev Cell := Nat × Word

end Sys2Proof
end

