-- ==== Sys2Proof/Syntax.lean ====
section
/-! DEFINITION. The instruction set: one constructor for each of the 19 rows of opcode_table.json, in the table's
order. Operands are those of each instruction's rule; an immediate or offset is the sign-extended 16-bit value of
30_encoding.md R78 (log 18). Ignored bits (R91) are no operand. -/

namespace Sys2Proof

/-- One row of the opcode table (R80). -/
inductive Instr where
  /-- BR: the requested bits n, z, p and PCoffset9 (R180). -/
  | br (n z p : Bool) (pcOffset9 : Word)
  /-- ADD, register mode (R132). -/
  | addReg (dr sr1 sr2 : Reg)
  /-- ADD, immediate mode (R133). -/
  | addImm (dr sr1 : Reg) (imm5 : Word)
  /-- LD, PC-relative load (R150). -/
  | ld (dr : Reg) (pcOffset9 : Word)
  /-- ST, PC-relative store (R156). -/
  | st (sr : Reg) (pcOffset9 : Word)
  /-- JSRR, subroutine call through a register (R186). -/
  | jsrr (baseR : Reg)
  /-- JSR, PC-relative subroutine call (R184). -/
  | jsr (pcOffset11 : Word)
  /-- AND, register mode (R134). -/
  | andReg (dr sr1 sr2 : Reg)
  /-- AND, immediate mode (R135). -/
  | andImm (dr sr1 : Reg) (imm5 : Word)
  /-- LDR, base+offset load (R152). -/
  | ldr (dr baseR : Reg) (offset6 : Word)
  /-- STR, base+offset store (R158). -/
  | str (sr baseR : Reg) (offset6 : Word)
  /-- Opcode 1000, LC-3's RTI: illegal (R202). -/
  | rtiIllegal
  /-- NOT (R136). -/
  | notReg (dr sr1 : Reg)
  /-- Opcode 1010, LC-3's LDI: illegal (R202). -/
  | ldiIllegal
  /-- Opcode 1011, LC-3's STI: illegal (R202). -/
  | stiIllegal
  /-- JMP; RET is JMP R7 (R182, R183). -/
  | jmp (baseR : Reg)
  /-- Opcode 1101, reserved: illegal (R202). -/
  | reservedIllegal
  /-- LEA, load effective address (R154). -/
  | lea (dr : Reg) (pcOffset9 : Word)
  /-- HALT (R200). -/
  | halt
  deriving DecidableEq, Repr

/-- The sixteen values of the 4-bit opcode (R80, R93). -/
inductive Opcode where
  | br | add | ld | st | jsr | and | ldr | str | rti | not | ldi | sti | jmp | reserved | lea | halt
  deriving DecidableEq, Repr

end Sys2Proof
end

