-- ==== Sys2Proof/WellFormed.lean ====
section
/-! DEFINITION. Which instructions an encoding exists for. A register operand is well formed by its type. An immediate
or offset operand is a 16-bit value, and it is well formed when it is the sign extension of its field
(00_scope.md R9, 30_encoding.md R78). -/

namespace Sys2Proof

/-- The value `v` lies in the range of `sext_n`: −2^(n−1) ≤ v < 2^(n−1) as two's complement (R9). -/
def fitsSigned (n : Nat) (v : Word) : Bool :=
  decide (-(2 : Int) ^ (n - 1) ≤ v.toInt ∧ v.toInt < (2 : Int) ^ (n - 1))

/-- The check of every operand that its type does not bound: imm5 in −16 … 15 (R133), offset6 in −32 … 31 (R161),
PCoffset9 in −256 … 255 (R160) and PCoffset11 in −1024 … 1023 (R188). -/
def Instr.wellFormed : Instr → Bool
  | .br _ _ _ pcOffset9 => fitsSigned 9 pcOffset9
  | .addReg _ _ _ => true
  | .addImm _ _ imm5 => fitsSigned 5 imm5
  | .ld _ pcOffset9 => fitsSigned 9 pcOffset9
  | .st _ pcOffset9 => fitsSigned 9 pcOffset9
  | .jsrr _ => true
  | .jsr pcOffset11 => fitsSigned 11 pcOffset11
  | .andReg _ _ _ => true
  | .andImm _ _ imm5 => fitsSigned 5 imm5
  | .ldr _ _ offset6 => fitsSigned 6 offset6
  | .str _ _ offset6 => fitsSigned 6 offset6
  | .rtiIllegal => true
  | .notReg _ _ => true
  | .ldiIllegal => true
  | .stiIllegal => true
  | .jmp _ => true
  | .reservedIllegal => true
  | .lea _ pcOffset9 => fitsSigned 9 pcOffset9
  | .halt => true

end Sys2Proof
end

