-- ==== Sys2Proof/Decode.lean ====
section
/-! DEFINITION. The instruction decoder: field extraction, sign extension and the opcode map (30_encoding.md), total on
every 16-bit word (R93), and the encoder from the same formats. -/

namespace Sys2Proof

/-! ## Fields (R71 to R77). PRESUMED, unsafe: positions the source does not give are LC-3's (D1, D2; log 10). -/

/-- `IR[15:12]`, the opcode's bits (R71). -/
def opcodeBits (w : Word) : BitVec 4 := w.extractLsb' 12 4

/-- `IR[11:9]`, named DR or SR (R72). -/
def destReg (w : Word) : Reg := (w.extractLsb' 9 3).toFin

/-- `IR[8:6]`, named SR1 or BaseR (R73). -/
def baseReg (w : Word) : Reg := (w.extractLsb' 6 3).toFin

/-- `IR[2:0]`, named SR2 (R74). -/
def sourceReg2 (w : Word) : Reg := (w.extractLsb' 0 3).toFin

/-- `IR[5]`: the second operand of ADD and AND is an immediate (R75). -/
def immediateModeBit (w : Word) : Bool := w.getLsbD 5

/-- `IR[11]`: JSR when 1, JSRR when 0 (R76). -/
def bit11 (w : Word) : Bool := w.getLsbD 11

/-- `IR[11]`, BR's n (R77). -/
def requestedN (w : Word) : Bool := w.getLsbD 11

/-- `IR[10]`, BR's z (R77). -/
def requestedZ (w : Word) : Bool := w.getLsbD 10

/-- `IR[9]`, BR's p (R77). -/
def requestedP (w : Word) : Bool := w.getLsbD 9

/-! ## Sign extension (00_scope.md R9, R10) and the immediates (R78) -/

/-- `sext_n` of the low n bits of `w`: they are kept, and every higher bit is a copy of bit n−1 (R9). -/
def sextLow (n : Nat) (w : Word) : Word := (w.extractLsb' 0 n).signExtend 16

/-- imm5 = sext_5(IR[4:0]) (R78; the spec's decision D3, log 18). -/
def imm5 (w : Word) : Word := sextLow 5 w

/-- offset6 = sext_6(IR[5:0]) (R78). -/
def offset6 (w : Word) : Word := sextLow 6 w

/-- PCoffset9 = sext_9(IR[8:0]) (R78). -/
def pcOffset9 (w : Word) : Word := sextLow 9 w

/-- PCoffset11 = sext_11(IR[10:0]) (R78). -/
def pcOffset11 (w : Word) : Word := sextLow 11 w

/-! ## The opcode map (R80) -/

/-- The opcode a 4-bit number selects (R80). PRESUMED, unsafe: LC-3's assignment (D1; log 10). -/
def Opcode.ofBits (b : BitVec 4) : Opcode :=
  match b.toNat with
  | 0 => .br
  | 1 => .add
  | 2 => .ld
  | 3 => .st
  | 4 => .jsr
  | 5 => .and
  | 6 => .ldr
  | 7 => .str
  | 8 => .rti
  | 9 => .not
  | 10 => .ldi
  | 11 => .sti
  | 12 => .jmp
  | 13 => .reserved
  | 14 => .lea
  | _ => .halt -- 15, the only 4-bit number left

/-- The 4-bit number of an opcode, the same column of R80 read from right to left. -/
def Opcode.toBits : Opcode → BitVec 4
  | .br => 0b0000#4
  | .add => 0b0001#4
  | .ld => 0b0010#4
  | .st => 0b0011#4
  | .jsr => 0b0100#4
  | .and => 0b0101#4
  | .ldr => 0b0110#4
  | .str => 0b0111#4
  | .rti => 0b1000#4
  | .not => 0b1001#4
  | .ldi => 0b1010#4
  | .sti => 0b1011#4
  | .jmp => 0b1100#4
  | .reserved => 0b1101#4
  | .lea => 0b1110#4
  | .halt => 0b1111#4

/-- The opcode of an instruction word (R71, R80). -/
def opcode (w : Word) : Opcode := Opcode.ofBits (opcodeBits w)

/-! ## Decoding (R93) -/

/-- The instruction a word selects. Total: "no failure modes" (R93). The four illegal opcodes are instructions of
their own, whatever their low bits (R89); ignored bits are not read (R91). -/
def decode (w : Word) : Instr :=
  match opcode w with
  | .br => .br (requestedN w) (requestedZ w) (requestedP w) (pcOffset9 w)
  | .add =>
    if immediateModeBit w then .addImm (destReg w) (baseReg w) (imm5 w)
    else .addReg (destReg w) (baseReg w) (sourceReg2 w)
  | .ld => .ld (destReg w) (pcOffset9 w)
  | .st => .st (destReg w) (pcOffset9 w)
  | .jsr => if bit11 w then .jsr (pcOffset11 w) else .jsrr (baseReg w)
  | .and =>
    if immediateModeBit w then .andImm (destReg w) (baseReg w) (imm5 w)
    else .andReg (destReg w) (baseReg w) (sourceReg2 w)
  | .ldr => .ldr (destReg w) (baseReg w) (offset6 w)
  | .str => .str (destReg w) (baseReg w) (offset6 w)
  | .rti => .rtiIllegal
  | .not => .notReg (destReg w) (baseReg w)
  | .ldi => .ldiIllegal
  | .sti => .stiIllegal
  | .jmp => .jmp (baseReg w)
  | .reserved => .reservedIllegal
  | .lea => .lea (destReg w) (pcOffset9 w)
  | .halt => .halt

/-- The instruction read from a table row's word: every row has `nbits` = 16 (R70), and a number that is no 16-bit
word is no instruction. -/
def decodeTableWord (nbits w : Nat) : Option Instr :=
  if nbits = 16 ∧ w < 65536 then some (decode (BitVec.ofNat 16 w)) else none

/-! ## Encoding (R81 to R89) -/

/-- A register number as its 3-bit field (R20). -/
def regBits (i : Reg) : BitVec 3 := ⟨i⟩

/-- A truth value as a one-bit field (R77). -/
def bitOf (b : Bool) : BitVec 1 := BitVec.ofBool b

/-- A field put at bit `lo` of a word, the other bits 0. -/
def place (lo : Nat) {n : Nat} (field : BitVec n) : Word := field.setWidth 16 <<< lo

/-- The low `n` bits of an immediate or offset: the field the encoding holds (R78). -/
def lowField (n : Nat) (v : Word) : BitVec n := v.extractLsb' 0 n

/-- The word of an instruction, from the formats R81 to R88, each field at its lowest bit. Ignored bits get the value
"LC-3 writes" there, and the illegal opcodes, which have no format (R89), get low bits of zero: DESIGN CHOICE, safe
(log 20). -/
def encode : Instr → Word
  | .br n z p off =>
    place 12 Opcode.br.toBits ||| place 11 (bitOf n) ||| place 10 (bitOf z) ||| place 9 (bitOf p) |||
      place 0 (lowField 9 off)
  | .addReg dr sr1 sr2 =>
    place 12 Opcode.add.toBits ||| place 9 (regBits dr) ||| place 6 (regBits sr1) ||| place 0 (regBits sr2)
  | .addImm dr sr1 imm =>
    place 12 Opcode.add.toBits ||| place 9 (regBits dr) ||| place 6 (regBits sr1) ||| place 5 0b1#1 |||
      place 0 (lowField 5 imm)
  | .ld dr off => place 12 Opcode.ld.toBits ||| place 9 (regBits dr) ||| place 0 (lowField 9 off)
  | .st sr off => place 12 Opcode.st.toBits ||| place 9 (regBits sr) ||| place 0 (lowField 9 off)
  | .jsrr base => place 12 Opcode.jsr.toBits ||| place 6 (regBits base)
  | .jsr off => place 12 Opcode.jsr.toBits ||| place 11 0b1#1 ||| place 0 (lowField 11 off)
  | .andReg dr sr1 sr2 =>
    place 12 Opcode.and.toBits ||| place 9 (regBits dr) ||| place 6 (regBits sr1) ||| place 0 (regBits sr2)
  | .andImm dr sr1 imm =>
    place 12 Opcode.and.toBits ||| place 9 (regBits dr) ||| place 6 (regBits sr1) ||| place 5 0b1#1 |||
      place 0 (lowField 5 imm)
  | .ldr dr base off =>
    place 12 Opcode.ldr.toBits ||| place 9 (regBits dr) ||| place 6 (regBits base) ||| place 0 (lowField 6 off)
  | .str sr base off =>
    place 12 Opcode.str.toBits ||| place 9 (regBits sr) ||| place 6 (regBits base) ||| place 0 (lowField 6 off)
  | .rtiIllegal => place 12 Opcode.rti.toBits
  | .notReg dr sr1 =>
    place 12 Opcode.not.toBits ||| place 9 (regBits dr) ||| place 6 (regBits sr1) ||| place 0 0b111111#6
  | .ldiIllegal => place 12 Opcode.ldi.toBits
  | .stiIllegal => place 12 Opcode.sti.toBits
  | .jmp base => place 12 Opcode.jmp.toBits ||| place 6 (regBits base)
  | .reservedIllegal => place 12 Opcode.reserved.toBits
  | .lea dr off => place 12 Opcode.lea.toBits ||| place 9 (regBits dr) ||| place 0 (lowField 9 off)
  | .halt => place 12 Opcode.halt.toBits ||| place 0 0x25#8

/-! ## The opcode table as data (opcode_table.json) -/

/-- A row of opcode_table.json: a word selects it when the word's bits under `mask` are `value`. -/
structure Row where
  mnemonic : String
  mask : Word
  value : Word
  deriving DecidableEq, Repr

/-- The 19 rows with the table's masks and match values. -/
def opcodeTable : List Row :=
  [⟨"BR", 0xF000#16, 0x0000#16⟩, ⟨"ADD", 0xF020#16, 0x1000#16⟩, ⟨"ADD", 0xF020#16, 0x1020#16⟩,
   ⟨"LD", 0xF000#16, 0x2000#16⟩, ⟨"ST", 0xF000#16, 0x3000#16⟩, ⟨"JSRR", 0xF800#16, 0x4000#16⟩,
   ⟨"JSR", 0xF800#16, 0x4800#16⟩, ⟨"AND", 0xF020#16, 0x5000#16⟩, ⟨"AND", 0xF020#16, 0x5020#16⟩,
   ⟨"LDR", 0xF000#16, 0x6000#16⟩] ++
  [⟨"STR", 0xF000#16, 0x7000#16⟩, ⟨"RTI__illegal", 0xF000#16, 0x8000#16⟩, ⟨"NOT", 0xF000#16, 0x9000#16⟩,
   ⟨"LDI__illegal", 0xF000#16, 0xA000#16⟩, ⟨"STI__illegal", 0xF000#16, 0xB000#16⟩,
   ⟨"JMP", 0xF000#16, 0xC000#16⟩, ⟨"RESERVED__illegal", 0xF000#16, 0xD000#16⟩,
   ⟨"LEA", 0xF000#16, 0xE000#16⟩, ⟨"HALT", 0xF000#16, 0xF000#16⟩]

/-- The word selects the row (the table's match and mask). -/
def rowMatches (row : Row) (w : Word) : Bool := w &&& row.mask == row.value

/-- The table's row of an instruction. -/
def rowOf : Instr → Row
  | .br _ _ _ _ => ⟨"BR", 0xF000#16, 0x0000#16⟩
  | .addReg _ _ _ => ⟨"ADD", 0xF020#16, 0x1000#16⟩
  | .addImm _ _ _ => ⟨"ADD", 0xF020#16, 0x1020#16⟩
  | .ld _ _ => ⟨"LD", 0xF000#16, 0x2000#16⟩
  | .st _ _ => ⟨"ST", 0xF000#16, 0x3000#16⟩
  | .jsrr _ => ⟨"JSRR", 0xF800#16, 0x4000#16⟩
  | .jsr _ => ⟨"JSR", 0xF800#16, 0x4800#16⟩
  | .andReg _ _ _ => ⟨"AND", 0xF020#16, 0x5000#16⟩
  | .andImm _ _ _ => ⟨"AND", 0xF020#16, 0x5020#16⟩
  | .ldr _ _ _ => ⟨"LDR", 0xF000#16, 0x6000#16⟩
  | .str _ _ _ => ⟨"STR", 0xF000#16, 0x7000#16⟩
  | .rtiIllegal => ⟨"RTI__illegal", 0xF000#16, 0x8000#16⟩
  | .notReg _ _ => ⟨"NOT", 0xF000#16, 0x9000#16⟩
  | .ldiIllegal => ⟨"LDI__illegal", 0xF000#16, 0xA000#16⟩
  | .stiIllegal => ⟨"STI__illegal", 0xF000#16, 0xB000#16⟩
  | .jmp _ => ⟨"JMP", 0xF000#16, 0xC000#16⟩
  | .reservedIllegal => ⟨"RESERVED__illegal", 0xF000#16, 0xD000#16⟩
  | .lea _ _ => ⟨"LEA", 0xF000#16, 0xE000#16⟩
  | .halt => ⟨"HALT", 0xF000#16, 0xF000#16⟩

/-- The bits of a word its row decodes; every other bit is ignored (R91, and R79, R89 for opcodes whose low bits are
not decoded). -/
def decodedBits : Instr → Word
  | .addReg _ _ _ => 0xFFE7#16
  | .andReg _ _ _ => 0xFFE7#16
  | .notReg _ _ => 0xFFC0#16
  | .jmp _ => 0xF1C0#16
  | .jsrr _ => 0xF9C0#16
  | .halt => 0xF000#16
  | .rtiIllegal => 0xF000#16
  | .ldiIllegal => 0xF000#16
  | .stiIllegal => 0xF000#16
  | .reservedIllegal => 0xF000#16
  | .br _ _ _ _ => 0xFFFF#16
  | .addImm _ _ _ => 0xFFFF#16
  | .andImm _ _ _ => 0xFFFF#16
  | .ld _ _ => 0xFFFF#16
  | .st _ _ => 0xFFFF#16
  | .jsr _ => 0xFFFF#16
  | .ldr _ _ _ => 0xFFFF#16
  | .str _ _ _ => 0xFFFF#16
  | .lea _ _ => 0xFFFF#16

end Sys2Proof
end

