-- ==== Sys2Proof/Config.lean ====
section
/-! DEFINITION. The implementation parameters of 00_scope.md R5 that the spec leaves OPEN. -/

namespace Sys2Proof

/-- The two OPEN parameters of R5. They are arguments of the machine: a state carries them, nothing writes them,
and a statement about every state holds for every value of them (log 1, log 2). -/
structure Config where
  /-- MEM_SIZE, the number of memory words. -/
  memSize : Nat
  /-- START_ADDRESS_DEFAULT, the display offset after reset. -/
  startAddressDefault : Word
  deriving DecidableEq, Repr

/-- "OPEN, an integer with 1 ≤ MEM_SIZE ≤ 65536" (R5). -/
abbrev Config.valid (c : Config) : Prop := 1 ≤ c.memSize ∧ c.memSize ≤ 65536

/-- The parameters of `State.reset`. DESIGN CHOICE, unsafe: the spec gives no value (log 1, log 2). -/
def Config.atReset : Config := ⟨65536, 0#16⟩

/-- The link register, R7. PRESUMED, unsafe: LC-3's number, the spec's decision D8 (R21; log 11). -/
def Config.linkRegister : Reg := 7

end Sys2Proof
end

