-- ==== Sys2Proof/Machine/State.lean ====
section
/-! DEFINITION. The state of the machine (10_state.md), its faults (60_exceptions.md R211), the results an invocation
returns (40_cycle.md R115), and the state right after creation (R38, R241). -/

namespace Sys2Proof.Machine

/-- The faults of R211. A fault of this machine is reported, never fatal: the spec gives the state it leaves (R212 to
R217) and lets the next invocation go on from it (R220), so a fault ends an invocation as a NEXT state whose `result`
holds the fault (log 4). No meaning answers `Outcome.fault`. -/
inductive Fault where
  /-- Code 1. Raised by FETCH, by LD and LDR at EXECUTE and by ST and STR at STORE, on an address ≥ MEM_SIZE (R52).
  Safe: the machine reports it, with the address (R212, R213). -/
  | memoryFault (address : Word)
  /-- Code 2. Raised at DECODE for opcodes 1000, 1010, 1011 and 1101 (R202), with the instruction word. Safe: a
  program that holds such a word can only be shown to fault (R214, D5). -/
  | illegalOpcode (word : Word)
  /-- Code 3. A result of the host's LOAD command: the index of the first bad token (R215). Safe: LOAD then changes
  nothing (R247). -/
  | malformedImageError (index : Nat)
  /-- Code 4. A result of the host's LOAD command: the file's name (R216). Safe: LOAD then changes nothing (R247). -/
  | fileNotFound (name : String)
  deriving DecidableEq, Repr

/-- An instruction without a meaning. Every instruction has one, so nothing raises it; safe. -/
inductive Refusal where
  /-- The instruction of this mnemonic has no meaning in the model yet. Raised by no arm of `exec`. Safe. -/
  | notModelled (mnemonic : String)
  deriving DecidableEq, Repr

/-- The six phases (R35, R100). -/
inductive Phase where
  | fetch | decode | evalAddr | fetchOp | execute | store
  deriving DecidableEq, Repr

/-- Three independent one-bit indicators: the condition flags N, Z, P (R24), or the requested flags (R25). -/
structure CondFlags where
  n : Bool
  z : Bool
  p : Bool
  deriving DecidableEq, Repr

/-- What an invocation returns to the host (R115). -/
inductive Result where
  /-- A HALT was decoded. -/
  | halted
  /-- A STEP's STORE completed. -/
  | stepped
  /-- A phase raised a fault. -/
  | faulted (fault : Fault)
  /-- An external stop was taken. -/
  | stopped
  deriving DecidableEq, Repr

/-- The memory array's nonzero cells, by rising address. A cell not listed holds 0x0000, as every cell does at
creation (R241; log 3). -/
abbrev Memory := List Cell

/-- Every piece of state of 10_state.md, the parameters of R5, and two fields of the model's own (`stopRequest`,
`result`). -/
structure State where
  /-- R0 to R7 (R20). -/
  regs : Vector Word 8
  /-- PC (R22). -/
  pc : Word
  /-- N, Z, P (R24). -/
  flags : CondFlags
  /-- IR (R26). -/
  ir : Word
  /-- The address of the instruction in IR (R23). -/
  currentPC : Word
  /-- A (R27). -/
  a : Word
  /-- B (R27). -/
  b : Word
  /-- R (R28). -/
  r : Word
  /-- MAR (R29). -/
  mar : Word
  /-- MDR (R30). -/
  mdr : Word
  /-- SEXT (R31). -/
  sext : Word
  /-- reqN, reqZ, reqP (R25). -/
  req : CondFlags
  /-- The engine's phase register (R35). -/
  phase : Phase
  /-- The display offset (R34). -/
  startAddress : Word
  /-- The memory array (R33). -/
  memory : Memory
  /-- MEM_SIZE and START_ADDRESS_DEFAULT (R5). No step and no command writes them. -/
  config : Config
  /-- The model's own field, DESIGN CHOICE: the external stop request of R112 as an input. `none`: the host raises no
  request in the coming invocation. `some k`: it raises one so that k boundary checks still find the request clear and
  the next one finds it set. Every boundary is some k (log 6). -/
  stopRequest : Option Nat
  /-- The model's own field, DESIGN CHOICE: what the last invocation returned (R115); `none` before the first
  (log 5). -/
  result : Option Result
  deriving DecidableEq, Repr

/-- The state right after creation, `initialize`, for any parameters: "sets every field of 10_state.md to its rule
R38 value and also zeroes all MEM_SIZE memory cells" (R241). -/
def State.create (config : Config) : State where
  regs := Vector.replicate 8 0#16
  pc := 0#16
  flags := ⟨false, false, false⟩
  ir := 0#16
  currentPC := 0#16
  a := 0#16
  b := 0#16
  r := 0#16
  mar := 0#16
  mdr := 0#16
  sext := 0#16
  req := ⟨false, false, false⟩
  phase := .fetch
  startAddress := config.startAddressDefault
  memory := []
  config := config
  stopRequest := none
  result := none

/-- The machine right after reset: creation at the parameters of `Config.atReset` (R38, R241). What the `reset()`
command does to a machine whose memory is not empty is `Machine.resetCommand`. -/
def State.reset : State := State.create Config.atReset

end Sys2Proof.Machine
end

