-- ==== Sys2Proof/Machine/Ops.lean ====
section
/-! DEFINITION. The operations every instruction shares: access to each register and latch, memory (20_memory.md), the
end of a phase, FETCH, the phase machine, and how a pass and an invocation end (40_cycle.md, 60_exceptions.md). -/

namespace Sys2Proof.Machine

/-! ## Registers and latches (10_state.md). Each has one home and one writer here. -/

/-- `x[i]` (R8, R20). -/
def State.reg (s : State) (i : Reg) : Word := s.regs[i.val]

/-- `x[i] <- v` (R8). No register is hardwired or read-only (R20). -/
def State.setReg (s : State) (i : Reg) (v : Word) : State := { s with regs := s.regs.set i.val v }

/-- `PC <- v` (R22). -/
def State.setPc (s : State) (v : Word) : State := { s with pc := v }

/-- The host's write of N, Z and P (R24, R39). No instruction calls it. -/
def State.setFlags (s : State) (v : CondFlags) : State := { s with flags := v }

/-- `IR <- v` (R26). -/
def State.setIr (s : State) (v : Word) : State := { s with ir := v }

/-- `currentPC <- v` (R23). -/
def State.setCurrentPC (s : State) (v : Word) : State := { s with currentPC := v }

/-- `A <- v` (R27). -/
def State.setA (s : State) (v : Word) : State := { s with a := v }

/-- `B <- v` (R27). -/
def State.setB (s : State) (v : Word) : State := { s with b := v }

/-- `R <- v` (R28). -/
def State.setR (s : State) (v : Word) : State := { s with r := v }

/-- `MAR <- v` (R29). -/
def State.setMar (s : State) (v : Word) : State := { s with mar := v }

/-- `MDR <- v` (R30). -/
def State.setMdr (s : State) (v : Word) : State := { s with mdr := v }

/-- `SEXT <- v` (R31). -/
def State.setSext (s : State) (v : Word) : State := { s with sext := v }

/-- `reqN, reqZ, reqP <- v` (R25). -/
def State.setReq (s : State) (v : CondFlags) : State := { s with req := v }

/-- `phase <- v` (R35). -/
def State.setPhase (s : State) (v : Phase) : State := { s with phase := v }

/-- `startAddress <- v` (R34). No instruction calls it. -/
def State.setStartAddress (s : State) (v : Word) : State := { s with startAddress := v }

/-- The memory array replaced (R33). -/
def State.setMemory (s : State) (v : Memory) : State := { s with memory := v }

/-- The stop request set or cleared (R112). -/
def State.setStopRequest (s : State) (v : Option Nat) : State := { s with stopRequest := v }

/-- The result an invocation returns, recorded (R115). -/
def State.setResult (s : State) (v : Option Result) : State := { s with result := v }

/-! ## Memory (20_memory.md). Cells are words; there is no byte and no byte order (R50). -/

/-- The word at an address: its cell if listed, else 0x0000 (R241). -/
def Memory.read : Memory → Nat → Word
  | [], _ => 0#16
  | c :: m, a => if c.1 = a then c.2 else Memory.read m a

/-- A cell put in its place among cells of rising address. -/
def Memory.insert (a : Nat) (v : Word) : Memory → Memory
  | [] => [(a, v)]
  | c :: m => if a < c.1 then (a, v) :: c :: m else c :: Memory.insert a v m

/-- The memory without any cell at an address. -/
def Memory.erase (m : Memory) (a : Nat) : Memory := m.filter fun c => c.1 != a

/-- The memory with the word `v` at an address. A zero word is not listed. -/
def Memory.write (m : Memory) (a : Nat) (v : Word) : Memory :=
  if v = 0#16 then m.erase a else (m.erase a).insert a v

/-- The canonical form: addresses strictly rising, no listed cell holding 0x0000. -/
def Memory.wf (m : Memory) : Bool :=
  decide (m.Pairwise fun c d => c.1 < d.1) && m.all fun c => c.2 != 0#16

/-- Every listed cell lies in a memory of `size` words (R33). -/
def Memory.within (m : Memory) (size : Nat) : Bool := m.all fun c => decide (c.1 < size)

/-- An address is legal when it is below MEM_SIZE (R52). -/
def State.inBounds (s : State) (address : Word) : Bool := decide (address.toNat < s.config.memSize)

/-- `MemRead(address, 1)` (R53). -/
def State.memRead (s : State) (address : Word) : Except Fault Word :=
  if s.inBounds address then .ok (s.memory.read address.toNat) else .error (.memoryFault address)

/-- `MemWrite(address, 1, v)` (R54). -/
def State.memWrite (s : State) (address v : Word) : Except Fault State :=
  if s.inBounds address then .ok (s.setMemory (s.memory.write address.toNat v))
  else .error (.memoryFault address)

/-! ## The end of a phase -/

/-- How one phase ends: its writes are made and the next phase follows; or a HALT was found (R108); or a fault was
raised, with the writes made before the raise (R109). -/
inductive PhaseEnd where
  | goOn (s : State)
  | halt (s : State)
  | raise (fault : Fault) (s : State)
  deriving DecidableEq, Repr

/-- A phase without an action for the opcode "still happens, and changes nothing" (R100). -/
def noAction (s : State) : PhaseEnd := .goOn s

/-- What the machine answers. -/
abbrev Answer := Host.Outcome State Fault Refusal

/-- The end of a pass: `phase <- FETCH`, with the result (R106, R108, R109, R111). Nothing is rolled back (R217). -/
def endPass (result : Result) (s : State) : Answer := .next ((s.setPhase .fetch).setResult (some result))

/-- The check between two phases (R112): `phase` holds the next phase; if the stop request is set, the invocation
returns `stopped` and the request is cleared; otherwise the next phase runs. -/
def boundary (next : Phase) (rest : State → Answer) (s : State) : Answer :=
  match s.stopRequest with
  | none => rest (s.setPhase next)
  | some 0 => .next (((s.setPhase next).setStopRequest none).setResult (some .stopped))
  | some (k + 1) => rest ((s.setPhase next).setStopRequest (some k))

/-- After one phase: the boundary and the rest of the pass, or the early end (R108, R109). -/
def afterPhase (next : Phase) (rest : State → Answer) : PhaseEnd → Answer
  | .goOn s => boundary next rest s
  | .halt s => endPass .halted s
  | .raise fault s => endPass (.faulted fault) s

/-- After the last phase: STORE completes the pass, which for a STEP is its end (R106, R111). -/
def afterStore : PhaseEnd → Answer
  | .goOn s => endPass .stepped s
  | .halt s => endPass .halted s
  | .raise fault s => endPass (.faulted fault) s

/-! ## The phase machine (R100) -/

/-- What an instruction does in each phase after FETCH (R102 to R106). A phase left out has no action. -/
structure Micro where
  decode : State → PhaseEnd := noAction
  evalAddr : State → PhaseEnd := noAction
  fetchOp : State → PhaseEnd := noAction
  execute : State → PhaseEnd := noAction
  store : State → PhaseEnd := noAction

/-- The pass from STORE on. -/
def runStore (m : Micro) (s : State) : Answer := afterStore (m.store s)

/-- The pass from EXECUTE on. -/
def runExecute (m : Micro) (s : State) : Answer := afterPhase .store (runStore m) (m.execute s)

/-- The pass from FETCH_OP on. -/
def runFetchOp (m : Micro) (s : State) : Answer := afterPhase .execute (runExecute m) (m.fetchOp s)

/-- The pass from EVAL_ADDR on. -/
def runEvalAddr (m : Micro) (s : State) : Answer := afterPhase .fetchOp (runFetchOp m) (m.evalAddr s)

/-- The pass from DECODE on. -/
def runDecode (m : Micro) (s : State) : Answer := afterPhase .evalAddr (runEvalAddr m) (m.decode s)

/-- The rest of an instruction's pass from the phase the phase register holds: DECODE after a FETCH, or the phase an
external stop saved (R113). FETCH stands for an instruction already fetched and is run as DECODE: DESIGN CHOICE, safe;
no step calls it so (log 9). -/
def runPass (m : Micro) (s : State) : Answer :=
  match s.phase with
  | .fetch => runDecode m s
  | .decode => runDecode m s
  | .evalAddr => runEvalAddr m s
  | .fetchOp => runFetchOp m s
  | .execute => runExecute m s
  | .store => runStore m s

/-! ## FETCH, and the end of an invocation -/

/-- FETCH (R101): MemoryFault(PC) with nothing written if PC ≥ MEM_SIZE; else IR, currentPC and PC. It does not touch
MAR or MDR (D13; log 15). PC wraps (D25; log 17). -/
def fetchPhase (s : State) : PhaseEnd :=
  match s.memRead s.pc with
  | .error fault => .raise fault s
  | .ok word => .goOn (((s.setIr word).setCurrentPC s.pc).setPc (s.pc + 1#16))

/-- An invocation returns: "A stop request still set when an invocation returns, for any reason, is cleared"
(R218). -/
def returnToHost : Answer → Answer
  | .next s => .next (s.setStopRequest none)
  | .fault f => .fault f
  | .refused r => .refused r

end Sys2Proof.Machine
end

