-- ==== Sys2Proof/Machine/Operands.lean ====
section
/-! DEFINITION. The operand forms: the actions of EVAL_ADDR and FETCH_OP that several instructions share (40_cycle.md
R103, R104, R107), and the two addressing modes (42_load_store.md R160, R161; 43_control.md R188). -/

namespace Sys2Proof.Machine

/-- `(currentPC + offset) mod 2^16` (R160, R188): the base is the instruction's own address. -/
def State.pcRelative (s : State) (offset : Word) : Word := s.currentPC + offset

/-- `(currentPC + 1) mod 2^16`, the return address (R184, R186). -/
def State.returnAddress (s : State) : Word := s.currentPC + 1#16

/-- EVAL_ADDR: `SEXT <- v` (R31). -/
def stageSext (v : Word) (s : State) : PhaseEnd := .goOn (s.setSext v)

/-- EVAL_ADDR of JSR and JSRR: `x[7] <- currentPC + 1` (R184, R186). -/
def linkReturn (s : State) : State := s.setReg Config.linkRegister s.returnAddress

/-- FETCH_OP: `A <- x[i]` (R136, R156, R182). -/
def fetchRegA (i : Reg) (s : State) : PhaseEnd := .goOn (s.setA (s.reg i))

/-- FETCH_OP: `B <- x[i]` (R186). -/
def fetchRegB (i : Reg) (s : State) : PhaseEnd := .goOn (s.setB (s.reg i))

/-- FETCH_OP: `A <- x[i]; B <- x[j]`, register mode (R132, R134). -/
def fetchRegReg (i j : Reg) (s : State) : PhaseEnd := .goOn ((s.setA (s.reg i)).setB (s.reg j))

/-- FETCH_OP: `A <- x[i]; B <- SEXT`, immediate mode and base+offset (R133, R135, R152, R158). -/
def fetchRegSext (i : Reg) (s : State) : PhaseEnd := .goOn ((s.setA (s.reg i)).setB s.sext)

/-- FETCH_OP: `A <- SEXT` (R150, R154). -/
def fetchSextA (s : State) : PhaseEnd := .goOn (s.setA s.sext)

/-- FETCH_OP: `A <- currentPC; B <- SEXT` (R180, R184). -/
def fetchPcSext (s : State) : PhaseEnd := .goOn ((s.setA s.currentPC).setB s.sext)

/-- STORE: `x[i] <- R` (R106). -/
def writeBack (i : Reg) (s : State) : PhaseEnd := .goOn (s.setReg i s.r)

end Sys2Proof.Machine
end

