-- ==== Sys2Proof/Machine/Alu.lean ====
section
/-! DEFINITION. ADD, AND and NOT (41_alu.md). None writes a flag (R131); none faults. -/

namespace Sys2Proof.Machine

/-- EXECUTE: `R <- (A + B) mod 2^16`, a carry or overflow discarded (R130). -/
def aluAdd (s : State) : PhaseEnd := .goOn (s.setR (s.a + s.b))

/-- EXECUTE: `R <- A & B` (R130). -/
def aluAnd (s : State) : PhaseEnd := .goOn (s.setR (s.a &&& s.b))

/-- EXECUTE: `R <- ~A` (R130). -/
def aluNot (s : State) : PhaseEnd := .goOn (s.setR (~~~s.a))

/-- EXECUTE: `R <- A` (R156, R182). -/
def aluPass (s : State) : PhaseEnd := .goOn (s.setR s.a)

/-- The phases of ADD, register mode (R132). -/
def microAddReg (dr sr1 sr2 : Reg) : Micro :=
  { fetchOp := fetchRegReg sr1 sr2, execute := aluAdd, store := writeBack dr }

/-- The meaning of ADD, register mode (R132). -/
def execAddReg (dr sr1 sr2 : Reg) (s : State) : Answer := runPass (microAddReg dr sr1 sr2) s

/-- The phases of ADD, immediate mode (R133). -/
def microAddImm (dr sr1 : Reg) (imm : Word) : Micro :=
  { evalAddr := stageSext imm, fetchOp := fetchRegSext sr1, execute := aluAdd, store := writeBack dr }

/-- The meaning of ADD, immediate mode (R133). -/
def execAddImm (dr sr1 : Reg) (imm : Word) (s : State) : Answer := runPass (microAddImm dr sr1 imm) s

/-- The phases of AND, register mode (R134). -/
def microAndReg (dr sr1 sr2 : Reg) : Micro :=
  { fetchOp := fetchRegReg sr1 sr2, execute := aluAnd, store := writeBack dr }

/-- The meaning of AND, register mode (R134). -/
def execAndReg (dr sr1 sr2 : Reg) (s : State) : Answer := runPass (microAndReg dr sr1 sr2) s

/-- The phases of AND, immediate mode (R135). -/
def microAndImm (dr sr1 : Reg) (imm : Word) : Micro :=
  { evalAddr := stageSext imm, fetchOp := fetchRegSext sr1, execute := aluAnd, store := writeBack dr }

/-- The meaning of AND, immediate mode (R135). -/
def execAndImm (dr sr1 : Reg) (imm : Word) (s : State) : Answer := runPass (microAndImm dr sr1 imm) s

/-- The phases of NOT (R136). B is not written. -/
def microNotReg (dr sr1 : Reg) : Micro :=
  { fetchOp := fetchRegA sr1, execute := aluNot, store := writeBack dr }

/-- The meaning of NOT (R136). -/
def execNotReg (dr sr1 : Reg) (s : State) : Answer := runPass (microNotReg dr sr1) s

end Sys2Proof.Machine
end

