-- ==== Sys2Proof/Machine/Flags.lean ====
section
/-! DEFINITION. The condition flags. No instruction computes them (10_state.md R24, 41_alu.md R131); the one use of
them is BR's condition (43_control.md R180). -/

namespace Sys2Proof.Machine

/-- `(reqN ∧ N) ∨ (reqZ ∧ Z) ∨ (reqP ∧ P)` (R180): taken if any requested flag is set. -/
def CondFlags.anyRequested (req flags : CondFlags) : Bool :=
  (req.n && flags.n) || (req.z && flags.z) || (req.p && flags.p)

/-- BR's condition in a state (R180). -/
def State.branchTaken (s : State) : Bool := s.req.anyRequested s.flags

end Sys2Proof.Machine
end

