-- ==== Sys2Proof/Machine/Control.lean ====
section
/-! DEFINITION. BR, JMP, JSR and JSRR (43_control.md). A target is written to PC unchecked; one beyond memory faults at
the next FETCH (R189). -/

namespace Sys2Proof.Machine

/-- EVAL_ADDR of BR: the requested flags and SEXT (R180). -/
def stageBranch (req : CondFlags) (off : Word) (s : State) : PhaseEnd := .goOn ((s.setReq req).setSext off)

/-- STORE of BR: `PC <- R` if the branch is taken; otherwise PC keeps FETCH's value (R180). -/
def commitBranch (s : State) : PhaseEnd := .goOn (if s.branchTaken then s.setPc s.r else s)

/-- STORE of JMP: `PC <- R` (R182). -/
def commitJump (s : State) : PhaseEnd := .goOn (s.setPc s.r)

/-- EVAL_ADDR of JSR: the link, then SEXT (R184). -/
def stageCall (off : Word) (s : State) : PhaseEnd := .goOn ((linkReturn s).setSext off)

/-- EVAL_ADDR of JSRR: the link alone (R186). -/
def stageCallRegister (s : State) : PhaseEnd := .goOn (linkReturn s)

/-- EXECUTE of JSR: `PC <- (A + B) mod 2^16` (R184). -/
def callPcRelative (s : State) : PhaseEnd := .goOn (s.setPc (s.a + s.b))

/-- EXECUTE of JSRR: `PC <- B` (R186). -/
def callRegister (s : State) : PhaseEnd := .goOn (s.setPc s.b)

/-- The phases of BR (R180; its base is the spec's decision D6, log 14). -/
def microBr (n z p : Bool) (off : Word) : Micro :=
  { evalAddr := stageBranch ⟨n, z, p⟩ off, fetchOp := fetchPcSext, execute := aluAdd, store := commitBranch }

/-- The meaning of BR (R180). -/
def execBr (n z p : Bool) (off : Word) (s : State) : Answer := runPass (microBr n z p off) s

/-- The phases of JMP (R182); RET is JMP R7 (R183). -/
def microJmp (base : Reg) : Micro :=
  { fetchOp := fetchRegA base, execute := aluPass, store := commitJump }

/-- The meaning of JMP (R182). -/
def execJmp (base : Reg) (s : State) : Answer := runPass (microJmp base) s

/-- The phases of JSR (R184; D6, D8, log 14, log 11). -/
def microJsr (off : Word) : Micro :=
  { evalAddr := stageCall off, fetchOp := fetchPcSext, execute := callPcRelative }

/-- The meaning of JSR (R184). -/
def execJsr (off : Word) (s : State) : Answer := runPass (microJsr off) s

/-- The phases of JSRR (R186). The base register is read after the link write, so JSRR R7 goes to the next instruction
(R250). -/
def microJsrr (base : Reg) : Micro :=
  { evalAddr := stageCallRegister, fetchOp := fetchRegB base, execute := callRegister }

/-- The meaning of JSRR (R186). -/
def execJsrr (base : Reg) (s : State) : Answer := runPass (microJsrr base) s

end Sys2Proof.Machine
end

