-- ==== Sys2Proof/Machine/LoadStore.lean ====
section
/-! DEFINITION. LD, LDR, LEA, ST and STR (42_load_store.md). MAR takes the effective address before the bounds check;
a faulting access writes nothing else (60_exceptions.md R213). -/

namespace Sys2Proof.Machine

/-- EXECUTE of a load: `MAR <- ea; MDR <- MemRead(MAR, 1); R <- MDR` (R150, R152). -/
def loadWord (ea : Word) (s : State) : PhaseEnd :=
  match (s.setMar ea).memRead ea with
  | .error fault => .raise fault (s.setMar ea)
  | .ok word => .goOn (((s.setMar ea).setMdr word).setR word)

/-- STORE of a store: `MAR <- ea`, the bounds check, `MDR <- v; MemWrite(MAR, 1, MDR)` (R156, R158). -/
def storeWord (ea v : Word) (s : State) : PhaseEnd :=
  match (s.setMar ea).memWrite ea v with
  | .error fault => .raise fault (s.setMar ea)
  | .ok written => .goOn (written.setMdr v)

/-- EXECUTE of LD: the load from `currentPC + A` (R150). -/
def loadPcRelative (s : State) : PhaseEnd := loadWord (s.pcRelative s.a) s

/-- EXECUTE of LDR: the load from `A + B` (R152). -/
def loadBaseOffset (s : State) : PhaseEnd := loadWord (s.a + s.b) s

/-- EXECUTE of LEA: `R <- currentPC + A`, the address and not memory's contents (R154). -/
def leaAddress (s : State) : PhaseEnd := .goOn (s.setR (s.pcRelative s.a))

/-- STORE of ST: R to `currentPC + SEXT` (R156; the spec's decision D7, log 14). -/
def storePcRelative (s : State) : PhaseEnd := storeWord (s.pcRelative s.sext) s.r s

/-- STORE of STR: x[SR] to the address in R (R158; D7, log 14). -/
def storeBaseOffset (sr : Reg) (s : State) : PhaseEnd := storeWord s.r (s.reg sr) s

/-- The phases of LD (R150). B is not written. -/
def microLd (dr : Reg) (off : Word) : Micro :=
  { evalAddr := stageSext off, fetchOp := fetchSextA, execute := loadPcRelative, store := writeBack dr }

/-- The meaning of LD (R150). -/
def execLd (dr : Reg) (off : Word) (s : State) : Answer := runPass (microLd dr off) s

/-- The phases of LDR (R152). -/
def microLdr (dr base : Reg) (off : Word) : Micro :=
  { evalAddr := stageSext off, fetchOp := fetchRegSext base, execute := loadBaseOffset, store := writeBack dr }

/-- The meaning of LDR (R152). -/
def execLdr (dr base : Reg) (off : Word) (s : State) : Answer := runPass (microLdr dr base off) s

/-- The phases of LEA (R154). It accesses no memory. -/
def microLea (dr : Reg) (off : Word) : Micro :=
  { evalAddr := stageSext off, fetchOp := fetchSextA, execute := leaAddress, store := writeBack dr }

/-- The meaning of LEA (R154). -/
def execLea (dr : Reg) (off : Word) (s : State) : Answer := runPass (microLea dr off) s

/-- The phases of ST (R156). -/
def microSt (sr : Reg) (off : Word) : Micro :=
  { evalAddr := stageSext off, fetchOp := fetchRegA sr, execute := aluPass, store := storePcRelative }

/-- The meaning of ST (R156). -/
def execSt (sr : Reg) (off : Word) (s : State) : Answer := runPass (microSt sr off) s

/-- The phases of STR (R158). -/
def microStr (sr base : Reg) (off : Word) : Micro :=
  { evalAddr := stageSext off, fetchOp := fetchRegSext base, execute := aluAdd, store := storeBaseOffset sr }

/-- The meaning of STR (R158). -/
def execStr (sr base : Reg) (off : Word) (s : State) : Answer := runPass (microStr sr base off) s

end Sys2Proof.Machine
end

