-- ==== Sys2Proof/Machine/System.lean ====
section
/-! DEFINITION. HALT and the four illegal opcodes (44_system.md). They end their pass at DECODE. Should the host write
one into IR while a pass is stopped at a later phase, the pass ends there in the same way: DEDUCED, unsafe (log 8). -/

namespace Sys2Proof.Machine

/-- A phase that finds HALT: the invocation returns `halted` with nothing written (R108, R200). -/
def haltPhase (s : State) : PhaseEnd := .halt s

/-- A phase that finds an illegal opcode: `raise IllegalOpcode(IR)` with nothing written (R102, R202, R214). -/
def illegalPhase (s : State) : PhaseEnd := .raise (.illegalOpcode s.ir) s

/-- The phases of an illegal opcode (R202). -/
def microIllegal : Micro :=
  { decode := illegalPhase, evalAddr := illegalPhase, fetchOp := illegalPhase, execute := illegalPhase,
    store := illegalPhase }

/-- The phases of HALT (R200): any word of opcode 1111. It is not sticky (D26). -/
def microHalt : Micro :=
  { decode := haltPhase, evalAddr := haltPhase, fetchOp := haltPhase, execute := haltPhase, store := haltPhase }

/-- The meaning of HALT (R200). -/
def execHalt (s : State) : Answer := runPass microHalt s

/-- Opcode 1000 (R202). -/
def execRtiIllegal (s : State) : Answer := runPass microIllegal s

/-- Opcode 1010 (R202). -/
def execLdiIllegal (s : State) : Answer := runPass microIllegal s

/-- Opcode 1011 (R202). -/
def execStiIllegal (s : State) : Answer := runPass microIllegal s

/-- Opcode 1101 (R202). -/
def execReservedIllegal (s : State) : Answer := runPass microIllegal s

end Sys2Proof.Machine
end

