-- ==== Sys2Proof/Machine/Dispatch.lean ====
section
/-! DEFINITION. The dispatch of an instruction to its meaning: one arm per constructor. `exec i s` runs what is left of
the pass of instruction `i` in the state `s`, whose phase register says where the pass stands. -/

namespace Sys2Proof.Machine

def exec (i : Instr) (s : State) : Host.Outcome State Fault Refusal :=
  match i with
  | .br n z p off => Sys2Proof.Machine.execBr n z p off s
  | .addReg dr sr1 sr2 => Sys2Proof.Machine.execAddReg dr sr1 sr2 s
  | .addImm dr sr1 imm => Sys2Proof.Machine.execAddImm dr sr1 imm s
  | .ld dr off => Sys2Proof.Machine.execLd dr off s
  | .st sr off => Sys2Proof.Machine.execSt sr off s
  | .jsrr base => Sys2Proof.Machine.execJsrr base s
  | .jsr off => Sys2Proof.Machine.execJsr off s
  | .andReg dr sr1 sr2 => Sys2Proof.Machine.execAndReg dr sr1 sr2 s
  | .andImm dr sr1 imm => Sys2Proof.Machine.execAndImm dr sr1 imm s
  | .ldr dr base off => Sys2Proof.Machine.execLdr dr base off s
  | .str sr base off => Sys2Proof.Machine.execStr sr base off s
  | .rtiIllegal => Sys2Proof.Machine.execRtiIllegal s
  | .notReg dr sr1 => Sys2Proof.Machine.execNotReg dr sr1 s
  | .ldiIllegal => Sys2Proof.Machine.execLdiIllegal s
  | .stiIllegal => Sys2Proof.Machine.execStiIllegal s
  | .jmp base => Sys2Proof.Machine.execJmp base s
  | .reservedIllegal => Sys2Proof.Machine.execReservedIllegal s
  | .lea dr off => Sys2Proof.Machine.execLea dr off s
  | .halt => Sys2Proof.Machine.execHalt s

end Sys2Proof.Machine
end

