-- ==== Sys2Proof/Machine/Cycle.lean ====
section
/-! DEFINITION. One pass of the six-phase cycle (40_cycle.md R100): FETCH, the boundary after it, and the rest of the
pass of the instruction IR decodes to. -/

namespace Sys2Proof.Machine

/-- The rest of the pass of the instruction in IR (R102). The decoder is a function of IR (R40), so a pass resumed
after a stop decodes IR again (D29). -/
def execIr (s : State) : Answer := exec (decode s.ir) s

/-- The engine from the phase register's value to the end of the pass (R110, R111): from FETCH one whole instruction;
from a later phase, saved by a stop, the rest of the instruction in flight (R113; D16, D17, log 7). -/
def cycle (s : State) : Answer :=
  match s.phase with
  | .fetch => afterPhase .decode execIr (fetchPhase s)
  | .decode => execIr s
  | .evalAddr => execIr s
  | .fetchOp => execIr s
  | .execute => execIr s
  | .store => execIr s

end Sys2Proof.Machine
end

