-- ==== Sys2Proof/Machine/Step.lean ====
section
/-! DEFINITION. The step: one STEP invocation of the engine (40_cycle.md R111), and a word placed where the next step
fetches it. -/

namespace Sys2Proof.Machine

/-- One STEP invocation (R111): the engine runs phases from `phase` until the next STORE completes, a HALT, a fault or
an external stop, and returns to the host with the stop request cleared (R218). `result` says which it was. -/
def step (s : State) : Host.Outcome State Fault Refusal := returnToHost (cycle s)

/-- The state with a table row's word where the next step fetches: memory[PC], with the phase register at FETCH and no
stop request, without which the next step would not run it whole. A number of bits that no row has, or a PC
beyond memory, changes nothing. It stands for the host's LOAD (R249; log 24). -/
def State.withFetchWord (s : State) (nbits w : Nat) : State :=
  if nbits = 16 ∧ s.inBounds s.pc then
    ((s.setMemory (s.memory.write s.pc.toNat (BitVec.ofNat 16 w))).setPhase .fetch).setStopRequest none
  else s

end Sys2Proof.Machine
end

