-- ==== Sys2Proof/Machine/HostInterface.lean ====
section
/-! DEFINITION. The block's interface to its host (70_reset_and_hazards.md R240 to R249): the commands, RUN, the memory
image, the accessors (10_state.md R39) and the snapshot (R37). -/

namespace Sys2Proof.Machine

/-! ## RUN (40_cycle.md R110) -/

/-- Between STORE and the next FETCH of a RUN (R112): the stop request is checked, and the next instruction follows if
it is clear. -/
def afterInstruction (rest : State → Option Answer) (s : State) : Option Answer :=
  match s.stopRequest with
  | none => rest s
  | some 0 => some (.next ((s.setStopRequest none).setResult (some .stopped)))
  | some (k + 1) => rest (s.setStopRequest (some k))

/-- One RUN invocation, followed for at most `bound` passes (R110): passes of the cycle until a HALT, a fault or an
external stop; `none` if it has not returned by then. A RUN for which every bound gives `none` is a hang (R115;
log 21). -/
def run : Nat → State → Option Answer
  | 0, _ => none
  | bound + 1, s =>
    match cycle s with
    | .next t =>
      if t.result = some .stepped then afterInstruction (run bound) t else some (returnToHost (.next t))
    | .fault f => some (.fault f)
    | .refused r => some (.refused r)

/-! ## The memory image and LOAD (R246, R247) -/

/-- A character that separates tokens: space, tab, newline, vertical tab, form feed, carriage return. PRESUMED, unsafe:
the spec says "whitespace" only (log 19). -/
def isSeparator (c : Char) : Bool := c == ' ' || decide (9 ≤ c.toNat ∧ c.toNat ≤ 13)

/-- The value of a hexadecimal digit, 0-9, a-f or A-F (R246). -/
def hexDigit (c : Char) : Option Nat :=
  if '0' ≤ c ∧ c ≤ '9' then some (c.toNat - 48)
  else if 'a' ≤ c ∧ c ≤ 'f' then some (c.toNat - 87)
  else if 'A' ≤ c ∧ c ≤ 'F' then some (c.toNat - 55)
  else none

/-- The tokens of a text; `token` holds the characters of the token being read, the last one first. -/
def tokensFrom (token : List Char) : List Char → List (List Char)
  | [] => if token = [] then [] else [token.reverse]
  | c :: text =>
    if isSeparator c then
      if token = [] then tokensFrom [] text else token.reverse :: tokensFrom [] text
    else tokensFrom (c :: token) text

/-- The whitespace-separated tokens of a memory image (R246). -/
def tokens (text : List Char) : List (List Char) := tokensFrom [] text

/-- The number that hexadecimal digits write after a prefix of value `value`. -/
def hexValue (value : Nat) : List Char → Option Nat
  | [] => some value
  | c :: digits =>
    match hexDigit c with
    | some d => hexValue (16 * value + d) digits
    | none => none

/-- The word a token writes: "a token is legal if it is one or more hexadecimal digits ... whose value is at most
0xFFFF" (R246). -/
def tokenWord (token : List Char) : Option Word :=
  match token with
  | [] => none
  | c :: digits =>
    match hexValue 0 (c :: digits) with
    | some v => if v ≤ 0xFFFF then some (BitVec.ofNat 16 v) else none
    | none => none

/-- The words of the tokens, the first of which has index `index`, for a memory of `size` words; or the index of the
first bad token: one that is not legal, or one beyond memory (R215, R247). -/
def imageWords (size index : Nat) : List (List Char) → Except Nat (List Word)
  | [] => .ok []
  | token :: rest =>
    match tokenWord token with
    | none => .error index
    | some w =>
      if index < size then
        match imageWords size (index + 1) rest with
        | .ok ws => .ok (w :: ws)
        | .error bad => .error bad
      else .error index

/-- Words written into sequential cells from an index up (R246). -/
def Memory.writeWords (m : Memory) (index : Nat) : List Word → Memory
  | [] => m
  | w :: ws => Memory.writeWords (m.write index w) (index + 1) ws

/-- What a command answers (R242). -/
inductive Reply where
  /-- The command did its work and returns no result. -/
  | done
  /-- A RUN or STEP returned; `result` of the state says how (R115). -/
  | returned (result : Option Result)
  /-- A LOAD failed (R215, R216). -/
  | failed (fault : Fault)
  /-- An accessor's bounds check refused the write (R39). -/
  | outOfBounds
  /-- The host process has ended (R248). -/
  | exited
  deriving DecidableEq, Repr

/-- LOAD(filename): `contents` is the text the file holds, or `none` if it does not exist. All-or-nothing (R246,
R247; D21, log 19). -/
def load (filename : String) (contents : Option (List Char)) (s : State) : Reply × State :=
  match contents with
  | none => (.failed (.fileNotFound filename), s)
  | some text =>
    match imageWords s.config.memSize 0 (tokens text) with
    | .error index => (.failed (.malformedImageError index), s)
    | .ok words => (.done, s.setMemory (s.memory.writeWords 0 words))

/-! ## reset(), the accessors and the snapshot -/

/-- `reset()` (R240): every field at its value of R38, memory untouched (D18; log 25). The model's own fields, the
stop request and the last result, are cleared too: DESIGN CHOICE (log 21). -/
def resetCommand (s : State) : State := (State.create s.config).setMemory s.memory

/-- A write accessor of the host, one for each field of 10_state.md (R39). -/
inductive HostWrite where
  | reg (i : Reg) (v : Word)
  | pc (v : Word)
  | flags (v : CondFlags)
  | ir (v : Word)
  | currentPC (v : Word)
  | a (v : Word)
  | b (v : Word)
  | r (v : Word)
  | mar (v : Word)
  | mdr (v : Word)
  | sext (v : Word)
  | req (v : CondFlags)
  | phase (v : Phase)
  | startAddress (v : Word)
  | memory (index : Nat) (v : Word)
  deriving DecidableEq, Repr

/-- A host write (R39): "No validation beyond array-bounds checks on memory access"; a write to a memory index ≥
MEM_SIZE is refused and nothing is written. -/
def hostWrite (w : HostWrite) (s : State) : Reply × State :=
  match w with
  | .reg i v => (.done, s.setReg i v)
  | .pc v => (.done, s.setPc v)
  | .flags v => (.done, s.setFlags v)
  | .ir v => (.done, s.setIr v)
  | .currentPC v => (.done, s.setCurrentPC v)
  | .a v => (.done, s.setA v)
  | .b v => (.done, s.setB v)
  | .r v => (.done, s.setR v)
  | .mar v => (.done, s.setMar v)
  | .mdr v => (.done, s.setMdr v)
  | .sext v => (.done, s.setSext v)
  | .req v => (.done, s.setReq v)
  | .phase v => (.done, s.setPhase v)
  | .startAddress v => (.done, s.setStartAddress v)
  | .memory index v =>
    if index < s.config.memSize then (.done, s.setMemory (s.memory.write index v)) else (.outOfBounds, s)

/-- The read accessor of memory, with its bounds check (R39). The other read accessors are the fields of `State`. -/
def hostReadMemory (index : Nat) (s : State) : Option Word :=
  if index < s.config.memSize then some (s.memory.read index) else none

/-- The snapshot surface (R37). It never shows SEXT, currentPC, the requested flags or the phase. -/
structure Snapshot where
  regs : Vector Word 8
  pc : Word
  ir : Word
  flags : CondFlags
  a : Word
  b : Word
  r : Word
  mar : Word
  mdr : Word
  window : List (Option Word)
  deriving DecidableEq, Repr

/-- The snapshot with a window of `length` cells from startAddress (R37). The length "is a host matter"; a cell beyond
memory shows as none: DESIGN CHOICE, safe (log 22). -/
def snapshot (length : Nat) (s : State) : Snapshot where
  regs := s.regs
  pc := s.pc
  ir := s.ir
  flags := s.flags
  a := s.a
  b := s.b
  r := s.r
  mar := s.mar
  mdr := s.mdr
  window := (List.range length).map fun k => hostReadMemory (s.startAddress.toNat + k) s

/-! ## Commands (R242) -/

/-- A command of the host. The stop request says at which boundary check of the next invocation it is found set
(R112; log 6). -/
inductive Command where
  | load (filename : String) (contents : Option (List Char))
  | run (bound : Nat)
  | step
  | stopRequest (clearChecks : Nat)
  | displayMem (address : Word)
  | exit
  | write (w : HostWrite)
  | reset
  deriving DecidableEq, Repr

/-- An invocation's answer as a reply and the state it leaves. -/
def invocationReply : Answer → Option (Reply × State)
  | .next s => some (.returned s.result, s)
  | .fault _ => none
  | .refused _ => none

/-- What a command does to the block and answers; `none` for a RUN that has not returned within its bound. DISPLAY_MEM
writes startAddress and nothing else (R245); EXIT does nothing to the block (R248). -/
def perform (c : Command) (s : State) : Option (Reply × State) :=
  match c with
  | .load filename contents => some (load filename contents s)
  | .run bound =>
    match run bound s with
    | some answer => invocationReply answer
    | none => none
  | .step => invocationReply (step s)
  | .stopRequest clearChecks => some (.done, s.setStopRequest (some clearChecks))
  | .displayMem address => some (.done, s.setStartAddress address)
  | .exit => some (.exited, s)
  | .write w => some (hostWrite w s)
  | .reset => some (.done, resetCommand s)

/-- A session of commands in order: the replies and the final state. "No later command reaches the block" after EXIT
(R248). -/
def session : List Command → State → Option (List Reply × State)
  | [], s => some ([], s)
  | c :: rest, s =>
    match perform c s with
    | none => none
    | some (.exited, t) => some ([.exited], t)
    | some (reply, t) =>
      match session rest t with
      | none => none
      | some (replies, u) => some (reply :: replies, u)

end Sys2Proof.Machine
end

