-- ==== Sys2Proof/Safety.lean ====
section
/-! DEFINITION. What counts as a legal state and as a safe run, and the table of what each instruction writes, in the
terms statements use. -/

namespace Sys2Proof

/-! ## The tables of 10_state.md R20 and 40_cycle.md R107, instruction by instruction -/

/-- An instruction that passes through all six phases (R100): every one but HALT and the illegal opcodes. -/
def Instr.supported : Instr → Bool
  | .br _ _ _ _ => true
  | .addReg _ _ _ => true
  | .addImm _ _ _ => true
  | .ld _ _ => true
  | .st _ _ => true
  | .jsrr _ => true
  | .jsr _ => true
  | .andReg _ _ _ => true
  | .andImm _ _ _ => true
  | .ldr _ _ _ => true
  | .str _ _ _ => true
  | .rtiIllegal => false
  | .notReg _ _ => true
  | .ldiIllegal => false
  | .stiIllegal => false
  | .jmp _ => true
  | .reservedIllegal => false
  | .lea _ _ => true
  | .halt => false

/-- One of the four illegal opcodes (R202). -/
def Instr.illegal : Instr → Bool
  | .br _ _ _ _ => false
  | .addReg _ _ _ => false
  | .addImm _ _ _ => false
  | .ld _ _ => false
  | .st _ _ => false
  | .jsrr _ => false
  | .jsr _ => false
  | .andReg _ _ _ => false
  | .andImm _ _ _ => false
  | .ldr _ _ _ => false
  | .str _ _ _ => false
  | .rtiIllegal => true
  | .notReg _ _ => false
  | .ldiIllegal => true
  | .stiIllegal => true
  | .jmp _ => false
  | .reservedIllegal => true
  | .lea _ _ => false
  | .halt => false

/-- JSR and JSRR: they write the link register, and PC at EXECUTE (R184, R186). -/
def Instr.call : Instr → Bool
  | .br _ _ _ _ => false
  | .addReg _ _ _ => false
  | .addImm _ _ _ => false
  | .ld _ _ => false
  | .st _ _ => false
  | .jsrr _ => true
  | .jsr _ => true
  | .andReg _ _ _ => false
  | .andImm _ _ _ => false
  | .ldr _ _ _ => false
  | .str _ _ _ => false
  | .rtiIllegal => false
  | .notReg _ _ => false
  | .ldiIllegal => false
  | .stiIllegal => false
  | .jmp _ => false
  | .reservedIllegal => false
  | .lea _ _ => false
  | .halt => false

/-- BR, JMP, JSR and JSRR: the instructions that write PC (R22). -/
def Instr.transfersControl : Instr → Bool
  | .br _ _ _ _ => true
  | .addReg _ _ _ => false
  | .addImm _ _ _ => false
  | .ld _ _ => false
  | .st _ _ => false
  | .jsrr _ => true
  | .jsr _ => true
  | .andReg _ _ _ => false
  | .andImm _ _ _ => false
  | .ldr _ _ _ => false
  | .str _ _ _ => false
  | .rtiIllegal => false
  | .notReg _ _ => false
  | .ldiIllegal => false
  | .stiIllegal => false
  | .jmp _ => true
  | .reservedIllegal => false
  | .lea _ _ => false
  | .halt => false

/-- LD and LDR: they read memory at EXECUTE (R65). -/
def Instr.loads : Instr → Bool
  | .br _ _ _ _ => false
  | .addReg _ _ _ => false
  | .addImm _ _ _ => false
  | .ld _ _ => true
  | .st _ _ => false
  | .jsrr _ => false
  | .jsr _ => false
  | .andReg _ _ _ => false
  | .andImm _ _ _ => false
  | .ldr _ _ _ => true
  | .str _ _ _ => false
  | .rtiIllegal => false
  | .notReg _ _ => false
  | .ldiIllegal => false
  | .stiIllegal => false
  | .jmp _ => false
  | .reservedIllegal => false
  | .lea _ _ => false
  | .halt => false

/-- ST and STR: they write memory at STORE (R65). -/
def Instr.stores : Instr → Bool
  | .br _ _ _ _ => false
  | .addReg _ _ _ => false
  | .addImm _ _ _ => false
  | .ld _ _ => false
  | .st _ _ => true
  | .jsrr _ => false
  | .jsr _ => false
  | .andReg _ _ _ => false
  | .andImm _ _ _ => false
  | .ldr _ _ _ => false
  | .str _ _ _ => true
  | .rtiIllegal => false
  | .notReg _ _ => false
  | .ldiIllegal => false
  | .stiIllegal => false
  | .jmp _ => false
  | .reservedIllegal => false
  | .lea _ _ => false
  | .halt => false

/-- BR: the one writer of the requested flags (R25). -/
def Instr.branches : Instr → Bool
  | .br _ _ _ _ => true
  | .addReg _ _ _ => false
  | .addImm _ _ _ => false
  | .ld _ _ => false
  | .st _ _ => false
  | .jsrr _ => false
  | .jsr _ => false
  | .andReg _ _ _ => false
  | .andImm _ _ _ => false
  | .ldr _ _ _ => false
  | .str _ _ _ => false
  | .rtiIllegal => false
  | .notReg _ _ => false
  | .ldiIllegal => false
  | .stiIllegal => false
  | .jmp _ => false
  | .reservedIllegal => false
  | .lea _ _ => false
  | .halt => false

/-- The register an instruction writes (the table of R20). -/
def Instr.destination : Instr → Option Reg
  | .br _ _ _ _ => none
  | .addReg dr _ _ => some dr
  | .addImm dr _ _ => some dr
  | .ld dr _ => some dr
  | .st _ _ => none
  | .jsrr _ => some Config.linkRegister
  | .jsr _ => some Config.linkRegister
  | .andReg dr _ _ => some dr
  | .andImm dr _ _ => some dr
  | .ldr dr _ _ => some dr
  | .str _ _ _ => none
  | .rtiIllegal => none
  | .notReg dr _ => some dr
  | .ldiIllegal => none
  | .stiIllegal => none
  | .jmp _ => none
  | .reservedIllegal => none
  | .lea dr _ => some dr
  | .halt => none

/-- The instructions that write SEXT (R31). -/
def Instr.writesSext : Instr → Bool
  | .br _ _ _ _ => true
  | .addReg _ _ _ => false
  | .addImm _ _ _ => true
  | .ld _ _ => true
  | .st _ _ => true
  | .jsrr _ => false
  | .jsr _ => true
  | .andReg _ _ _ => false
  | .andImm _ _ _ => true
  | .ldr _ _ _ => true
  | .str _ _ _ => true
  | .rtiIllegal => false
  | .notReg _ _ => false
  | .ldiIllegal => false
  | .stiIllegal => false
  | .jmp _ => false
  | .reservedIllegal => false
  | .lea _ _ => true
  | .halt => false

/-- The instructions that write A (R107). -/
def Instr.writesA : Instr → Bool
  | .br _ _ _ _ => true
  | .addReg _ _ _ => true
  | .addImm _ _ _ => true
  | .ld _ _ => true
  | .st _ _ => true
  | .jsrr _ => false
  | .jsr _ => true
  | .andReg _ _ _ => true
  | .andImm _ _ _ => true
  | .ldr _ _ _ => true
  | .str _ _ _ => true
  | .rtiIllegal => false
  | .notReg _ _ => true
  | .ldiIllegal => false
  | .stiIllegal => false
  | .jmp _ => true
  | .reservedIllegal => false
  | .lea _ _ => true
  | .halt => false

/-- The instructions that write B (R107). -/
def Instr.writesB : Instr → Bool
  | .br _ _ _ _ => true
  | .addReg _ _ _ => true
  | .addImm _ _ _ => true
  | .ld _ _ => false
  | .st _ _ => false
  | .jsrr _ => true
  | .jsr _ => true
  | .andReg _ _ _ => true
  | .andImm _ _ _ => true
  | .ldr _ _ _ => true
  | .str _ _ _ => true
  | .rtiIllegal => false
  | .notReg _ _ => false
  | .ldiIllegal => false
  | .stiIllegal => false
  | .jmp _ => false
  | .reservedIllegal => false
  | .lea _ _ => false
  | .halt => false

/-- The instructions that write R: "every opcode except JSR and JSRR" of those that reach EXECUTE (R28). -/
def Instr.writesR : Instr → Bool
  | .br _ _ _ _ => true
  | .addReg _ _ _ => true
  | .addImm _ _ _ => true
  | .ld _ _ => true
  | .st _ _ => true
  | .jsrr _ => false
  | .jsr _ => false
  | .andReg _ _ _ => true
  | .andImm _ _ _ => true
  | .ldr _ _ _ => true
  | .str _ _ _ => true
  | .rtiIllegal => false
  | .notReg _ _ => true
  | .ldiIllegal => false
  | .stiIllegal => false
  | .jmp _ => true
  | .reservedIllegal => false
  | .lea _ _ => true
  | .halt => false

end Sys2Proof

namespace Sys2Proof.Machine

/-- The state belongs to a machine of the spec: its parameters are legal (R5), its memory has the canonical form and
lies within MEM_SIZE (R33). -/
structure State.Legal (s : State) : Prop where
  config : s.config.valid
  wf : s.memory.wf = true
  within : s.memory.within s.config.memSize = true

/-- DECODE is the next phase and the host raises no stop request: where an instruction stands right after its FETCH. -/
def State.ready (s : State) : Prop := s.phase = .decode ∧ s.stopRequest = none

/-- The state after the end of a pass with a result: `phase <- FETCH`, nothing else (R106, R108, R109). -/
def State.ended (s : State) (result : Result) : State := (s.setPhase .fetch).setResult (some result)

/-- The state FETCH leaves when it reads the word `w` (R101). -/
def State.fetched (s : State) (w : Word) : State := ((s.setIr w).setCurrentPC s.pc).setPc (s.pc + 1#16)

/-- A pass stands at a later phase only when an external stop saved it there, and then the latches still describe the
instruction in flight: it is the word at currentPC, PC is the address after it until a call's EXECUTE, and past DECODE
it is a supported instruction (R22, R101, R102, R112). -/
structure State.InFlight (s : State) : Prop where
  stopped : s.phase ≠ .fetch → s.result = some .stopped
  fetched : s.phase ≠ .fetch → s.inBounds s.currentPC = true ∧ s.ir = s.memory.read s.currentPC.toNat
  decoded : s.phase ≠ .fetch → s.phase ≠ .decode → (decode s.ir).supported = true
  sequential : s.phase ≠ .fetch → (s.phase = .store → (decode s.ir).call = false) → s.pc = s.currentPC + 1#16

/-- How many boundary checks stand between a phase and the STORE of its pass: all five inside an instruction from FETCH,
none from STORE (R112). -/
def Phase.checksLeft : Phase → Nat
  | .fetch => 5
  | .decode => 4
  | .evalAddr => 3
  | .fetchOp => 2
  | .execute => 1
  | .store => 0

/-- The last invocation did not fault. -/
def State.noFault (s : State) : Bool :=
  match s.result with
  | some (.faulted _) => false
  | some .halted => true
  | some .stepped => true
  | some .stopped => true
  | none => true

/-- A safe step: it answers a state whose invocation did not fault. -/
def SafeStep (s : State) : Prop := ∃ t, step s = .next t ∧ t.noFault = true

/-- A RUN that never returns, "a hang" (R115). -/
def Hangs (s : State) : Prop := ∀ bound, run bound s = none

end Sys2Proof.Machine
end

