-- ==== Sys2Proof/Certificates/Slice0/Obligations.lean ====
section
/-! DEFINITION. The statements for the provers. A docstring names the rule of spec/ a statement formalises; where a
clause rests on a decision of the spec's own or of the model's, it names the decision or the log entry. A statement
about every state holds for every MEM_SIZE and every START_ADDRESS_DEFAULT, since a state carries them. -/

open Sys2Proof Sys2Proof.Machine

/-! ## Encoding (30_encoding.md, 00_scope.md) -/

/-- Each extractor equals the slice V-SRC-1 gives it, over all words. Positions the source does not give are the
spec's decision D2. Rests on the spec's decision D2 (log 10). -/
def Obligations.DecoderFieldsAreTheirBitSlices : Prop :=
  ∀ w : Word,
    (opcodeBits w).toNat = w.toNat / 4096 ∧
    (destReg w).val = w.toNat / 512 % 8 ∧
    (baseReg w).val = w.toNat / 64 % 8 ∧
    (sourceReg2 w).val = w.toNat % 8 ∧
    immediateModeBit w = decide (w.toNat / 32 % 2 = 1) ∧
    bit11 w = decide (w.toNat / 2048 % 2 = 1) ∧
    requestedN w = decide (w.toNat / 2048 % 2 = 1) ∧
    requestedZ w = decide (w.toNat / 1024 % 2 = 1) ∧
    requestedP w = decide (w.toNat / 512 % 2 = 1)

/-- R10's sentence about the source's three sign-extension functions, those for 6, 9 and 11 bits: they are bit-exact, in
the words of R9's pseudocode `if v[N-1] = 1 then (v | (0xFFFF << N)) & 0xFFFF else v`, with v the low N bits. R9's N = 5
is the spec's decision D3 and stands in `ImmediatesAreTheirSignedFields` (log 18). -/
def Obligations.SignExtensionOfSixNineElevenBitsIsExact : Prop :=
  ∀ w : Word, ∀ n ∈ [6, 9, 11],
    sextLow n w =
      if w.getLsbD (n - 1) then (w &&& BitVec.ofNat 16 (2 ^ n - 1)) ||| (0xFFFF#16 <<< n)
      else w &&& BitVec.ofNat 16 (2 ^ n - 1)

/-- The immediates as signed numbers (R78): each is its field read as two's complement. That imm5 is sign-extended
from five bits is the spec's decision D3 (log 18). -/
def Obligations.ImmediatesAreTheirSignedFields : Prop :=
  ∀ w : Word,
    (imm5 w).toInt = (if w.toNat % 32 < 16 then (w.toNat % 32 : Int) else (w.toNat % 32 : Int) - 32) ∧
    (offset6 w).toInt = (if w.toNat % 64 < 32 then (w.toNat % 64 : Int) else (w.toNat % 64 : Int) - 64) ∧
    (pcOffset9 w).toInt = (if w.toNat % 512 < 256 then (w.toNat % 512 : Int) else (w.toNat % 512 : Int) - 512) ∧
    (pcOffset11 w).toInt =
      (if w.toNat % 2048 < 1024 then (w.toNat % 2048 : Int) else (w.toNat % 2048 : Int) - 2048)

/-- Decoding is total, and each word selects exactly one row of opcode_table.json, the row of the instruction it
decodes to (30_encoding.md section 4). The opcode numbers are the spec's decision D1 (log 10). Rests on the spec's
decisions D1 (log 10), D4 (log 12) and D5 (log 13). -/
def Obligations.EveryWordSelectsExactlyItsRow : Prop :=
  ∀ w : Word, opcodeTable.filter (fun row => rowMatches row w) = [rowOf (decode w)]

/-- Decoding the encoding of any well-formed instruction gives it back, with every operand at every value. The formats
are the spec's decisions D1, D2, D3 (log 10, log 18). Rests on the spec's decisions D1 and D2 (log 10), D3 (log 18),
D4 (log 12) and D5 (log 13); and on the model's log 20. -/
def Obligations.DecodeOfEncodeIsTheInstruction : Prop :=
  ∀ i : Instr, i.wellFormed = true → decode (encode i) = i

/-- Every word decodes to a well-formed instruction (30_encoding.md sections 1 and 4). That imm5 lies in -16 to 15 is
the spec's decision D3 (log 18, DEDUCED); that operands are held sign-extended and bounded by well-formedness is the
model's choice (log 18, DESIGN CHOICE). -/
def Obligations.DecodedInstructionsAreWellFormed : Prop :=
  ∀ w : Word, (decode w).wellFormed = true

/-- Words that agree on the bits their row decodes are the same instruction: ignored bits are ignored, the spec's
decision D15 (and D4, D5 for the opcodes whose low bits mean nothing). Rests on the spec's decisions D1 and D2 (log
10), D4 (log 12), D5 (log 13) and D15 (log 20). -/
def Obligations.IgnoredBitsChangeNoInstruction : Prop :=
  ∀ w v : Word, w &&& decodedBits (decode w) = v &&& decodedBits (decode w) → decode v = decode w

/-- HALT is opcode 1111 and the illegal opcodes are 1000, 1010, 1011 and 1101, by the four opcode bits alone: the
spec's decisions D4 and D5. Rests on the spec's decisions D1 (log 10), D4 (log 12) and D5 (log 13). -/
def Obligations.OpcodeBitsAloneDecideHaltAndIllegal : Prop :=
  ∀ w : Word,
    (decode w = .halt ↔ w.toNat / 4096 = 15) ∧
    ((decode w).illegal = true ↔ w.toNat / 4096 ∈ [8, 10, 11, 13])

/-- Words written out in 95_test_vectors.md decode to the instructions they stand for. Their opcode numbers and field
positions are the spec's decisions D1 and D2 (log 10), their negative imm5 its decision D3 (log 18), HALT and the illegal
word its decisions D4 and D5 (log 12, log 13). -/
def Obligations.ExampleWordsDecode : Prop :=
  decode 0x1283#16 = .addReg 1 2 3 ∧ decode 0x1030#16 = .addImm 0 0 0xFFF0#16 ∧
  decode 0x94BF#16 = .notReg 2 2 ∧ decode 0x21FF#16 = .ld 0 0xFFFF#16 ∧ decode 0x7443#16 = .str 2 1 3#16 ∧
  decode 0x0A02#16 = .br true false true 2#16 ∧ decode 0x4C00#16 = .jsr 0xFC00#16 ∧ decode 0x41C0#16 = .jsrr 7 ∧
  decode 0xF025#16 = .halt ∧ decode 0xA005#16 = .ldiIllegal

/-! ## The cycle and the step (40_cycle.md) -/

/-- A step runs the decoded instruction. From FETCH with PC in bounds and no stop request, the step is `exec` of the
instruction in memory[PC], from DECODE, after FETCH's writes; with a stop request that the first check does not yet
find, the same with the request one check nearer, and the request cleared at the return; from a later phase it is
`exec` of the instruction in IR. Rests on the spec's decisions D13 (log 15), D16, D17 and D29 (log 7) and D25 (log
17); and on the model's log 6. -/
def Obligations.StepRunsTheDecodedInstruction : Prop :=
  (∀ s : State, s.phase = .fetch → s.inBounds s.pc = true → s.stopRequest = none →
    step s = exec (decode (s.memory.read s.pc.toNat))
      ((s.fetched (s.memory.read s.pc.toNat)).setPhase .decode)) ∧
  (∀ (s : State) (k : Nat), s.phase = .fetch → s.inBounds s.pc = true → s.stopRequest = some (k + 1) →
    step s = returnToHost (exec (decode (s.memory.read s.pc.toNat))
      (((s.fetched (s.memory.read s.pc.toNat)).setPhase .decode).setStopRequest (some k)))) ∧
  (∀ s : State, s.phase ≠ .fetch → step s = returnToHost (exec (decode s.ir) s))

/-- FETCH writes IR, currentPC and PC and nothing else (40_cycle.md section 1): seen by stopping right after it. That
MAR and MDR are not written, that PC wraps and that a stop is checked there are the spec's decisions D13, D25, D16.
Rests on the spec's decisions D13 (log 15), D16 (log 7) and D25 (log 17); and on the model's log 6. -/
def Obligations.FetchWritesInstructionAndPcOnly : Prop :=
  ∀ s : State, s.phase = .fetch → s.inBounds s.pc = true → s.stopRequest = some 0 →
    ∃ t, step s = .next t ∧ t.ir = s.memory.read s.pc.toNat ∧ t.currentPC = s.pc ∧ t.pc = s.pc + 1#16 ∧
      t = (((((s.setIr t.ir).setCurrentPC t.currentPC).setPc t.pc).setPhase .decode).setStopRequest none).setResult
        (some .stopped)

/-- A fetch beyond memory writes nothing, and repeats at the next step (60_exceptions.md section 2): the spec's
decision D11. Rests on the spec's decisions D11, D12 and D28 (log 16); and on the model's log 4. -/
def Obligations.FetchBeyondMemoryFaultsAndRepeats : Prop :=
  ∀ s : State, s.phase = .fetch → s.inBounds s.pc = false →
    step s = .next ((s.setStopRequest none).setResult (some (.faulted (.memoryFault s.pc)))) ∧
    ∀ t, step s = .next t → step t = .next t

/-- Every step returns to the host with a result: no opcode and no fault is fatal to the block (60_exceptions.md
section 2, 40_cycle.md section 4). That a fault is a next state is the model's reading (log 4). Rests on the spec's
decision D12 (log 16); and on the model's log 4. -/
def Obligations.EveryStepReturnsAResult : Prop :=
  ∀ s : State, ∃ t r, step s = .next t ∧ t.result = some r

/-- Every return clears the stop request, and leaves the phase at FETCH unless a stop was taken (60_exceptions.md
section 2, 40_cycle.md section 3): the spec's decisions D16 and D28. Rests on the spec's decisions D12 and D28 (log
16) and D16 (log 7). -/
def Obligations.ReturnClearsStopAndPhase : Prop :=
  ∀ s t : State, step s = .next t → t.stopRequest = none ∧ (t.result ≠ some .stopped → t.phase = .fetch)

/-- A stop loses nothing: whatever boundary it falls on, the next step, with no host write in between, ends in exactly
the state the unstopped step ends in (40_cycle.md section 3): the spec's decisions D16 and D17. Rests on the spec's
decisions D16, D17 and D29 (log 7); and on the model's log 6. -/
def Obligations.StoppedStepResumesToTheSameEnd : Prop :=
  ∀ (s t : State) (k : Nat), step (s.setStopRequest (some k)) = .next t → t.result = some .stopped →
    step t = step (s.setStopRequest none)

/-- A supported instruction can be stopped at each of the five boundaries inside it, with the next phase saved; no
boundary before STORE finds memory changed (40_cycle.md section 3): the spec's decision D16. The last one, after
EXECUTE, is reached by a load if its effective address is in bounds; a load whose address is not faults at EXECUTE.
Rests on the spec's decisions D16 (log 7) and D25 (log 17); and on the model's log 6. -/
def Obligations.StopIsTakenAtEachBoundary : Prop :=
  ∀ (s : State) (w : Word) (k : Nat) (p : Phase), s.phase = .fetch → s.inBounds s.pc = true →
    s.stopRequest = some k → w = s.memory.read s.pc.toNat → (decode w).supported = true →
    [Phase.decode, .evalAddr, .fetchOp, .execute, .store][k]? = some p →
    (∀ dr off, k = 4 → decode w = .ld dr off → s.inBounds (s.pc + off) = true) →
    (∀ dr base off, k = 4 → decode w = .ldr dr base off → s.inBounds (s.reg base + off) = true) →
    ∃ t, step s = .next t ∧ t.result = some .stopped ∧ t.phase = p ∧ t.memory = s.memory ∧
      t.currentPC = s.pc ∧ t.ir = w

/-- A fault or HALT inside DECODE ends the invocation although a stop request is pending, and clears the request
(60_exceptions.md section 2): the spec's decision D28. Rests on the spec's decisions D4 (log 12), D5 (log 13), D13
(log 15), D25 (log 17) and D28 (log 16); and on the model's log 4 and log 6. -/
def Obligations.FaultAndHaltWinOverPendingStop : Prop :=
  ∀ (s : State) (w : Word) (k : Nat), s.phase = .fetch → s.inBounds s.pc = true → s.stopRequest = some (k + 1) →
    s.memory.read s.pc.toNat = w →
    ((decode w).illegal = true →
      step s = .next (((s.fetched w).ended (.faulted (.illegalOpcode w))).setStopRequest none)) ∧
    (decode w = .halt → step s = .next (((s.fetched w).ended .halted).setStopRequest none))

/-- After a step from FETCH that faults on an instruction fetched in bounds, the instruction is skipped: phase is
FETCH, PC is the next address, and no general register, no flag and no memory cell has changed (60_exceptions.md
sections 2 and 3): the spec's decision D12. Rests on the spec's decisions D5 (log 13), D12 (log 16) and D25 (log 17);
and on the model's log 4. -/
def Obligations.FaultedInstructionIsSkipped : Prop :=
  ∀ (s t : State) (f : Fault), s.phase = .fetch → s.inBounds s.pc = true →
    step s = .next t → t.result = some (.faulted f) →
    t.phase = .fetch ∧ t.pc = s.pc + 1#16 ∧ t.currentPC = s.pc ∧ t.ir = s.memory.read s.pc.toNat ∧
      t.regs = s.regs ∧ t.flags = s.flags ∧ t.memory = s.memory

/-! ## Whole-machine rules: who writes what (10_state.md, 40_cycle.md R107) -/

/-- No instruction writes N, Z or P (10_state.md section 3; for the ALU instructions 41_alu.md section 1): only the
host does, the spec's decision D9 (log 25). -/
def Obligations.NoInstructionWritesTheFlags : Prop :=
  ∀ (i : Instr) (s t : State), exec i s = .next t → t.flags = s.flags

/-- With all flags clear, as after reset, they stay clear through any step, and no BR moves PC: "no BR is ever taken"
(10_state.md section 3). Rests on the spec's decision D9 (log 25). -/
def Obligations.NoBranchIsTakenWithClearFlags : Prop :=
  ∀ s t : State, s.flags = ⟨false, false, false⟩ →
    (step s = .next t → t.flags = ⟨false, false, false⟩) ∧
    (∀ n z p off, exec (.br n z p off) s = .next t → t.pc = s.pc)

/-- At exec, PC is written only by BR, JMP, JSR and JSRR (10_state.md section 2). Rests on the spec's decisions D4
(log 12) and D5 (log 13). -/
def Obligations.OnlyControlTransfersWritePc : Prop :=
  ∀ (i : Instr) (s t : State), exec i s = .next t → i.transfersControl = false → t.pc = s.pc

/-- A general register changes only as an instruction's destination (the table of 10_state.md section 1). Rests on the
spec's decision D8 (log 11). -/
def Obligations.OnlyTheDestinationRegisterChanges : Prop :=
  ∀ (i : Instr) (s t : State) (j : Reg), exec i s = .next t → i.destination ≠ some j → t.reg j = s.reg j

/-- A latch an instruction does not write keeps its value: IR, currentPC, MAR, MDR, SEXT, A, B, R and the requested
flags, by the phase table of 40_cycle.md section 1: the spec's decisions D13 and D14. Rests on the spec's decisions D4
(log 12), D5 (log 13), D6 and D7 (log 14) and D13 and D14 (log 15). -/
def Obligations.UnwrittenLatchesKeepTheirValue : Prop :=
  ∀ (i : Instr) (s t : State), exec i s = .next t →
    t.ir = s.ir ∧ t.currentPC = s.currentPC ∧ t.startAddress = s.startAddress ∧ t.config = s.config ∧
    (i.loads = false → i.stores = false → t.mar = s.mar ∧ t.mdr = s.mdr) ∧
    (i.writesSext = false → t.sext = s.sext) ∧
    (i.writesA = false → t.a = s.a) ∧
    (i.writesB = false → t.b = s.b) ∧
    (i.writesR = false → t.r = s.r) ∧
    (i.branches = false → t.req = s.req)

/-- No instruction reads or writes startAddress (10_state.md section 5): with another value the step does the same to
everything else and keeps that value. reset() gives it START_ADDRESS_DEFAULT, and DISPLAY_MEM writes it and nothing
else. Rests on the spec's decision D19 (log 2). -/
def Obligations.DisplayOffsetChangesNoExecution : Prop :=
  ∀ (s t : State) (d : Word),
    (step s = .next t → t.startAddress = s.startAddress ∧
      step (s.setStartAddress d) = .next (t.setStartAddress d)) ∧
    (resetCommand s).startAddress = s.config.startAddressDefault ∧
    perform (.displayMem d) s = some (.done, s.setStartAddress d)

/-! ## ALU instructions (41_alu.md) -/

/-- ADD in register mode (41_alu.md section 2): the encoding (any word under mask 0xF020, match 0x1000), and from
DECODE the whole next state: A, B, R and x[DR] written, nothing else, the old operand values used. The opcode number
and the field positions are LC-3's, the spec's decisions D1 and D2 (log 10, PRESUMED); that IR[4:3] is ignored is its
decision D15 (log 20). Rests on the spec's decisions D1 and D2 (log 10), D14 (log 15), D15 (log 20) and D25 (log 17).
-/
def Obligations.AddRegisterMode : Prop :=
  (∀ w : Word, w &&& 0xF020#16 = 0x1000#16 → decode w = .addReg (destReg w) (baseReg w) (sourceReg2 w)) ∧
  ∀ (dr sr1 sr2 : Reg) (s : State), s.ready →
    exec (.addReg dr sr1 sr2) s =
      .next (((((s.setA (s.reg sr1)).setB (s.reg sr2)).setR (s.reg sr1 + s.reg sr2)).setReg dr
        (s.reg sr1 + s.reg sr2)).ended .stepped)

/-- ADD in immediate mode (41_alu.md section 2). The opcode number and the field positions are LC-3's, the spec's
decisions D1 and D2 (log 10, PRESUMED); that imm5 is sext_5 of IR[4:0] is its decision D3 (log 18). Rests on the
spec's decisions D1 and D2 (log 10), D3 (log 18), D14 (log 15) and D25 (log 17). -/
def Obligations.AddImmediateMode : Prop :=
  (∀ w : Word, w &&& 0xF020#16 = 0x1020#16 → decode w = .addImm (destReg w) (baseReg w) (sextLow 5 w)) ∧
  ∀ (dr sr1 : Reg) (imm : Word) (s : State), s.ready →
    exec (.addImm dr sr1 imm) s =
      .next ((((((s.setSext imm).setA (s.reg sr1)).setB imm).setR (s.reg sr1 + imm)).setReg dr
        (s.reg sr1 + imm)).ended .stepped)

/-- AND in register mode (41_alu.md section 3). The opcode number and the field positions are LC-3's, the spec's
decisions D1 and D2 (log 10, PRESUMED); that IR[4:3] is ignored is its decision D15 (log 20). Rests on the spec's
decisions D1 and D2 (log 10), D14 (log 15) and D15 (log 20). -/
def Obligations.AndRegisterMode : Prop :=
  (∀ w : Word, w &&& 0xF020#16 = 0x5000#16 → decode w = .andReg (destReg w) (baseReg w) (sourceReg2 w)) ∧
  ∀ (dr sr1 sr2 : Reg) (s : State), s.ready →
    exec (.andReg dr sr1 sr2) s =
      .next (((((s.setA (s.reg sr1)).setB (s.reg sr2)).setR (s.reg sr1 &&& s.reg sr2)).setReg dr
        (s.reg sr1 &&& s.reg sr2)).ended .stepped)

/-- AND in immediate mode (41_alu.md section 3). The opcode number and the field positions are LC-3's, the spec's
decisions D1 and D2 (log 10, PRESUMED); that imm5 is sext_5 of IR[4:0] is its decision D3 (log 18). Rests on the
spec's decisions D1 and D2 (log 10), D3 (log 18) and D14 (log 15). -/
def Obligations.AndImmediateMode : Prop :=
  (∀ w : Word, w &&& 0xF020#16 = 0x5020#16 → decode w = .andImm (destReg w) (baseReg w) (sextLow 5 w)) ∧
  ∀ (dr sr1 : Reg) (imm : Word) (s : State), s.ready →
    exec (.andImm dr sr1 imm) s =
      .next ((((((s.setSext imm).setA (s.reg sr1)).setB imm).setR (s.reg sr1 &&& imm)).setReg dr
        (s.reg sr1 &&& imm)).ended .stepped)

/-- NOT (41_alu.md sections 1 and 4): B is not written, and as a number ~A is −A − 1. The opcode number and the field
positions are LC-3's, the spec's decisions D1 and D2 (log 10, PRESUMED); that IR[5:0] is ignored is its decision D15
(log 20). Rests on the spec's decisions D1 and D2 (log 10), D14 (log 15) and D15 (log 20). -/
def Obligations.NotComplements : Prop :=
  (∀ w : Word, w &&& 0xF000#16 = 0x9000#16 → decode w = .notReg (destReg w) (baseReg w)) ∧
  ∀ (dr sr1 : Reg) (s : State), s.ready →
    exec (.notReg dr sr1) s =
      .next ((((s.setA (s.reg sr1)).setR (~~~(s.reg sr1))).setReg dr (~~~(s.reg sr1))).ended .stepped) ∧
    ~~~(s.reg sr1) = -(s.reg sr1) - 1#16

/-- LEA (42_load_store.md section 2): the address and not memory's contents; no bound is checked; MAR and MDR are not
written. The opcode number and the field position are LC-3's, the spec's decisions D1 and D2 (log 10, PRESUMED). Rests
on the spec's decisions D1 and D2 (log 10), D14 (log 15) and D25 (log 17). -/
def Obligations.LeaGivesTheAddress : Prop :=
  (∀ w : Word, w &&& 0xF000#16 = 0xE000#16 → decode w = .lea (destReg w) (sextLow 9 w)) ∧
  ∀ (dr : Reg) (off : Word) (s : State), s.ready →
    exec (.lea dr off) s =
      .next (((((s.setSext off).setA off).setR (s.currentPC + off)).setReg dr (s.currentPC + off)).ended .stepped)

/-! ## Loads and stores (42_load_store.md) -/

/-- LD in bounds (42_load_store.md section 2). That MDR holds the word read is the spec's decision D13. Rests on the
spec's decisions D13 and D14 (log 15) and D25 (log 17). -/
def Obligations.LdLoadsPcRelative : Prop :=
  ∀ (dr : Reg) (off ea v : Word) (s : State), s.ready → ea = s.currentPC + off → s.inBounds ea = true →
    v = s.memory.read ea.toNat →
    exec (.ld dr off) s =
      .next (((((((s.setSext off).setA off).setMar ea).setMdr v).setR v).setReg dr v).ended .stepped)

/-- LDR (42_load_store.md section 2): in bounds the word at x[BaseR] + offset6, the old base used; out of bounds
MemoryFault(EA) at EXECUTE, with MAR = EA and MDR, R and x[DR] not written: the spec's decisions D12 and D13 (log 16,
log 15). The opcode number and the field positions are LC-3's, its decisions D1 and D2 (log 10, PRESUMED). Rests on
the spec's decisions D1 and D2 (log 10), D12 (log 16), D13 and D14 (log 15) and D25 (log 17). -/
def Obligations.LdrLoadsBaseOffset : Prop :=
  (∀ w : Word, w &&& 0xF000#16 = 0x6000#16 → decode w = .ldr (destReg w) (baseReg w) (sextLow 6 w)) ∧
  ∀ (dr base : Reg) (off ea v : Word) (s : State), s.ready → ea = s.reg base + off →
    (s.inBounds ea = true → v = s.memory.read ea.toNat →
      exec (.ldr dr base off) s =
        .next ((((((((s.setSext off).setA (s.reg base)).setB off).setMar ea).setMdr v).setR v).setReg dr v).ended
          .stepped)) ∧
    (s.inBounds ea = false →
      exec (.ldr dr base off) s =
        .next (((((s.setSext off).setA (s.reg base)).setB off).setMar ea).ended (.faulted (.memoryFault ea))))

/-- ST in bounds (42_load_store.md section 3). Its address and its row of "store variants" are the spec's decision D7.
Rests on the spec's decisions D7 (log 14), D13 and D14 (log 15) and D25 (log 17). -/
def Obligations.StStoresPcRelative : Prop :=
  ∀ (sr : Reg) (off ea : Word) (s : State), s.ready → ea = s.currentPC + off → s.inBounds ea = true →
    exec (.st sr off) s =
      .next (((((((s.setSext off).setA (s.reg sr)).setR (s.reg sr)).setMar ea).setMdr (s.reg sr)).setMemory
        (s.memory.write ea.toNat (s.reg sr))).ended .stepped)

/-- STR in bounds (42_load_store.md section 3; the spec's decision D7). Rests on the spec's decisions D7 (log 14), D13
and D14 (log 15) and D25 (log 17). -/
def Obligations.StrStoresBaseOffset : Prop :=
  ∀ (sr base : Reg) (off ea : Word) (s : State), s.ready → ea = s.reg base + off → s.inBounds ea = true →
    exec (.str sr base off) s =
      .next ((((((((s.setSext off).setA (s.reg base)).setB off).setR ea).setMar ea).setMdr (s.reg sr)).setMemory
        (s.memory.write ea.toNat (s.reg sr))).ended .stepped)

/-- A data access out of bounds leaves exactly the writes before the raise, with MAR = EA (60_exceptions.md section
2): the spec's decision D12. LD at EXECUTE; ST and STR at STORE. ST's address currentPC + offset and its R = x[SR],
and STR's row, are the spec's decision D7 (log 14); that MDR is not written is its decision D13 (log 15). Rests on the
spec's decisions D7 (log 14), D12 (log 16), D13 and D14 (log 15) and D25 (log 17); and on the model's log 4. -/
def Obligations.DataFaultKeepsEarlierWritesOnly : Prop :=
  (∀ (dr : Reg) (off ea : Word) (s : State), s.ready → ea = s.currentPC + off → s.inBounds ea = false →
    exec (.ld dr off) s =
      .next ((((s.setSext off).setA off).setMar ea).ended (.faulted (.memoryFault ea)))) ∧
  (∀ (sr : Reg) (off ea : Word) (s : State), s.ready → ea = s.currentPC + off → s.inBounds ea = false →
    exec (.st sr off) s =
      .next (((((s.setSext off).setA (s.reg sr)).setR (s.reg sr)).setMar ea).ended (.faulted (.memoryFault ea)))) ∧
  (∀ (sr base : Reg) (off ea : Word) (s : State), s.ready → ea = s.reg base + off → s.inBounds ea = false →
    exec (.str sr base off) s =
      .next ((((((s.setSext off).setA (s.reg base)).setB off).setR ea).setMar ea).ended
        (.faulted (.memoryFault ea))))

/-- R53 and R54: a read after a write to the same address gives the word written, a write leaves every other address
alone, and an address beyond memory raises MemoryFault of that address for both. -/
def Obligations.MemoryReadsBackWhatWasWritten : Prop :=
  ∀ (s : State) (x v : Word),
    (s.inBounds x = true →
      s.memRead x = .ok (s.memory.read x.toNat) ∧
      ∃ t, s.memWrite x v = .ok t ∧ t.memRead x = .ok v ∧ (∀ y, y ≠ x → t.memRead y = s.memRead y) ∧
        t = s.setMemory t.memory) ∧
    (s.inBounds x = false → s.memRead x = .error (.memoryFault x) ∧ s.memWrite x v = .error (.memoryFault x))

/-- Instruction fetch is coherent with stores (20_memory.md section 4): a word stored by ST or STR is the instruction
a later step from that address runs, with nothing between them. The address ST stores to, currentPC + offset, is the
spec's decision D7 (log 14); STR's, x[BaseR] + offset, is 42_load_store.md section 1's. Rests on the spec's decisions
D7 (log 14) and D25 (log 17). -/
def Obligations.StoreIsSeenByTheNextFetch : Prop :=
  ∀ (sr base : Reg) (off : Word) (s t u : State), s.ready →
    (s.inBounds (s.currentPC + off) = true → exec (.st sr off) s = .next t →
      step (t.setPc (s.currentPC + off)) = .next u → u.ir = s.reg sr) ∧
    (s.inBounds (s.reg base + off) = true → exec (.str sr base off) s = .next t →
      step (t.setPc (s.reg base + off)) = .next u → u.ir = s.reg sr)

/-! ## Control transfers (43_control.md) -/

/-- BR (43_control.md section 2): the target is computed whether or not the branch is taken, and PC takes it if a
requested flag is set. The base currentPC is the spec's decision D6. Rests on the spec's decisions D6 (log 14), D14
(log 15) and D25 (log 17). -/
def Obligations.BranchTestsRequestedFlags : Prop :=
  ∀ (n z p : Bool) (off : Word) (s : State), s.ready →
    exec (.br n z p off) s =
      .next (((((((s.setReq ⟨n, z, p⟩).setSext off).setA s.currentPC).setB off).setR (s.currentPC + off)).setPc
        (if (n = true ∧ s.flags.n = true) ∨ (z = true ∧ s.flags.z = true) ∨ (p = true ∧ s.flags.p = true)
          then s.currentPC + off else s.pc)).ended .stepped)

/-- JMP (43_control.md section 3). The opcode number and the field position are LC-3's, the spec's decisions D1 and D2
(log 10, PRESUMED); that IR[11:9] and IR[5:0] are ignored is its decision D15 (log 20). Rests on the spec's decisions
D1 and D2 (log 10), D14 (log 15) and D15 (log 20). -/
def Obligations.JumpGoesToTheRegister : Prop :=
  (∀ w : Word, w &&& 0xF000#16 = 0xC000#16 → decode w = .jmp (baseReg w)) ∧
  ∀ (base : Reg) (s : State), s.ready →
    exec (.jmp base) s =
      .next ((((s.setA (s.reg base)).setR (s.reg base)).setPc (s.reg base)).ended .stepped)

/-- JSR (43_control.md section 4): R7 and PC; R, MAR and MDR are not written. The base is the spec's decision D6, the
link register R7 its decision D8. Rests on the spec's decisions D6 (log 14), D8 (log 11), D14 (log 15) and D25 (log
17). -/
def Obligations.JsrLinksAndCalls : Prop :=
  ∀ (off : Word) (s : State), s.ready →
    exec (.jsr off) s =
      .next ((((((s.setReg 7 (s.currentPC + 1#16)).setSext off).setA s.currentPC).setB off).setPc
        (s.currentPC + off)).ended .stepped)

/-- JSRR (43_control.md section 4): the base is read after the link write, so JSRR R7 goes to the next instruction;
SEXT and A are not written: the spec's decisions D6 and D8. Rests on the spec's decisions D6 (log 14), D8 (log 11),
D14 (log 15) and D25 (log 17). -/
def Obligations.JsrrReadsItsBaseAfterTheLink : Prop :=
  ∀ (base : Reg) (s : State), s.ready →
    exec (.jsrr base) s =
      .next ((((s.setReg 7 (s.currentPC + 1#16)).setB
        (if base = 7 then s.currentPC + 1#16 else s.reg base)).setPc
        (if base = 7 then s.currentPC + 1#16 else s.reg base)).ended .stepped)

/-- A control transfer completes whatever its target; a target beyond memory faults only at the next FETCH
(43_control.md section 1). Rests on the spec's decision D11 (log 16); and on the model's log 4. -/
def Obligations.TransferBeyondMemoryFaultsAtTheNextFetch : Prop :=
  ∀ (i : Instr) (s : State), i.transfersControl = true → s.ready →
    ∃ t, exec i s = .next t ∧ t.result = some .stepped ∧
      (s.inBounds t.pc = false →
        step t = .next (t.setResult (some (.faulted (.memoryFault t.pc)))))

/-- A taken branch to itself runs forever: RUN never returns (43_control.md section 2, 40_cycle.md section 4). Rests
on the spec's decisions D6 (log 14) and D25 (log 17); and on the model's log 21. -/
def Obligations.TakenSelfBranchHangs : Prop :=
  ∀ (s : State) (n z p : Bool), s.phase = .fetch → s.stopRequest = none → s.inBounds s.pc = true →
    decode (s.memory.read s.pc.toNat) = .br n z p 0#16 → CondFlags.anyRequested ⟨n, z, p⟩ s.flags = true →
    Hangs s

/-! ## HALT and the illegal opcodes (44_system.md) -/

/-- HALT (44_system.md): from DECODE it ends the invocation with `halted` and writes nothing but the phase: the spec's
decision D4. Rests on the spec's decision D4 (log 12); and on the model's log 4. -/
def Obligations.HaltReturnsToTheHost : Prop :=
  ∀ s : State, s.ready → exec .halt s = .next (s.ended .halted)

/-- The illegal opcodes (44_system.md): from DECODE each raises IllegalOpcode(IR) and writes nothing but the phase:
the spec's decision D5. Rests on the spec's decision D5 (log 13); and on the model's log 4. -/
def Obligations.IllegalOpcodesRaise : Prop :=
  ∀ i ∈ [Instr.rtiIllegal, .ldiIllegal, .stiIllegal, .reservedIllegal], ∀ s : State, s.ready →
    exec i s = .next (s.ended (.faulted (.illegalOpcode s.ir)))

/-! ## Frames: what an instruction leaves unchanged, from any phase and with any stop request -/

/-- Register-only instructions: every register but DR, PC, the flags and the requested flags, MAR, MDR, IR, currentPC,
the display offset, and every word of memory. Rests on the spec's decision D14 (log 15). -/
def Obligations.RegisterInstructionsFrame : Prop :=
  ∀ (dr sr1 sr2 : Reg) (imm : Word) (s t : State),
    ∀ i ∈ [Instr.addReg dr sr1 sr2, .addImm dr sr1 imm, .andReg dr sr1 sr2, .andImm dr sr1 imm, .notReg dr sr1,
      .lea dr imm],
    exec i s = .next t →
      (∀ j, j ≠ dr → t.reg j = s.reg j) ∧ t.pc = s.pc ∧ t.flags = s.flags ∧ t.req = s.req ∧ t.mar = s.mar ∧
      t.mdr = s.mdr ∧ t.ir = s.ir ∧ t.currentPC = s.currentPC ∧ t.startAddress = s.startAddress ∧
      ∀ x, t.memory.read x = s.memory.read x

/-- Loads: every register but DR, PC, the flags and the requested flags, IR, currentPC, the display offset, and every
word of memory. Rests on the spec's decisions D12 (log 16) and D14 (log 15). -/
def Obligations.LoadsFrame : Prop :=
  ∀ (dr base : Reg) (off : Word) (s t : State), ∀ i ∈ [Instr.ld dr off, .ldr dr base off],
    exec i s = .next t →
      (∀ j, j ≠ dr → t.reg j = s.reg j) ∧ t.pc = s.pc ∧ t.flags = s.flags ∧ t.req = s.req ∧ t.ir = s.ir ∧
      t.currentPC = s.currentPC ∧ t.startAddress = s.startAddress ∧
      ∀ x, t.memory.read x = s.memory.read x

/-- Stores, from DECODE: every register, PC, the flags and the requested flags, IR, currentPC, the display offset, and
every word of memory but the one at the effective address: currentPC + offset for ST, x[BaseR] + offset for STR. Rests
on the spec's decisions D7 (log 14), D12 (log 16), D14 (log 15) and D25 (log 17). -/
def Obligations.StoresFrame : Prop :=
  ∀ (sr base : Reg) (off ea : Word) (s t : State), s.phase = .decode →
    (exec (.st sr off) s = .next t ∧ ea = s.pcRelative off ∨
      exec (.str sr base off) s = .next t ∧ ea = s.reg base + off) →
    t.regs = s.regs ∧ t.pc = s.pc ∧ t.flags = s.flags ∧ t.req = s.req ∧ t.ir = s.ir ∧
      t.currentPC = s.currentPC ∧ t.startAddress = s.startAddress ∧
      ∀ x, x ≠ ea.toNat → t.memory.read x = s.memory.read x

/-- Control transfers: every register but R7 of the two calls, the flags, MAR, MDR, IR, currentPC, the display offset,
and every word of memory; the requested flags but for BR; R for the calls. Rests on the spec's decisions D6 (log 14),
D8 (log 11) and D14 (log 15). -/
def Obligations.ControlTransfersFrame : Prop :=
  ∀ (i : Instr) (s t : State), i.transfersControl = true → exec i s = .next t →
    (∀ j, (i.call = true → j ≠ 7) → t.reg j = s.reg j) ∧ t.flags = s.flags ∧ t.mar = s.mar ∧ t.mdr = s.mdr ∧
    t.ir = s.ir ∧ t.currentPC = s.currentPC ∧ t.startAddress = s.startAddress ∧
    (i.branches = false → t.req = s.req) ∧ (i.call = true → t.r = s.r) ∧
    ∀ x, t.memory.read x = s.memory.read x

/-! ## Invariants -/

/-- Every step keeps the state legal: the parameters as they are, memory in its canonical form and within MEM_SIZE
(10_state.md section 5; log 3). Rests on the spec's decisions D10 (log 1) and D19 (log 2); and on the model's log 3.
-/
def Obligations.StepKeepsTheStateLegal : Prop :=
  ∀ s t : State, s.Legal → step s = .next t → t.Legal ∧ t.config = s.config

/-- Every step keeps the pass in flight consistent: a phase other than FETCH is one a stop saved, IR is the word at
currentPC, PC is the next address until a call's EXECUTE, and past DECODE the instruction is a supported one
(40_cycle.md sections 1 and 3). Rests on the spec's decisions D4 (log 12), D5 (log 13), D16 (log 7) and D25 (log 17).
-/
def Obligations.StepKeepsThePassInFlight : Prop :=
  ∀ s t : State, s.InFlight → step s = .next t → t.InFlight

/-- The state right after creation is legal and in flight, for any legal parameters. Rests on the spec's decisions D10
(log 1) and D18 (log 25); and on the model's log 3 and log 5. -/
def Obligations.CreationIsLegalAndInFlight : Prop :=
  ∀ c : Config, c.valid → (State.create c).Legal ∧ (State.create c).InFlight

/-! ## Reset and the host's commands (10_state.md, 70_reset_and_hazards.md) -/

/-- After creation every field has its reset value and every memory cell reads 0x0000 (10_state.md section 8): the
spec's decisions D14, D18 and D19. The state of the host's `State.reset` is creation at named parameters (log 1, log
2). Rests on the spec's decisions D14 and D18 (log 25) and D19 (log 2). -/
def Obligations.CreationGivesTheResetValues : Prop :=
  ∀ c : Config, ∀ s, s = State.create c →
    (∀ i, s.reg i = 0#16) ∧ s.pc = 0#16 ∧ s.flags = ⟨false, false, false⟩ ∧ s.ir = 0#16 ∧ s.a = 0#16 ∧ s.b = 0#16 ∧
    s.r = 0#16 ∧ s.mar = 0#16 ∧ s.mdr = 0#16 ∧ s.sext = 0#16 ∧ s.currentPC = 0#16 ∧
    s.req = ⟨false, false, false⟩ ∧ s.phase = .fetch ∧ s.startAddress = c.startAddressDefault ∧
    (∀ x, s.memory.read x = 0#16)

/-- The `reset()` command gives the values of creation and leaves memory alone (70_reset_and_hazards.md section 1):
the spec's decision D18. It also clears the model's own fields (log 21). Rests on the spec's decisions D14 and D18
(log 25) and D19 (log 2); and on the model's log 21. -/
def Obligations.ResetCommandKeepsMemory : Prop :=
  ∀ s : State, perform .reset s = some (.done, (State.create s.config).setMemory s.memory) ∧
    (resetCommand s).memory = s.memory

/-- What a memory image says (70_reset_and_hazards.md section 2): the tokens of a text are its whitespace-separated
parts, and a token is legal, with the word w, exactly when it is one or more hexadecimal digits (0-9, a-f, A-F) whose
base-16 value is w, so at most 0xFFFF. The policy is the spec's decision D21; which characters are whitespace is the
model's choice (log 19, PRESUMED). -/
def Obligations.ImageTokensAreSeparatedHexadecimalWords : Prop :=
  (∀ c : Char, isSeparator c = true ↔ c.toNat ∈ [32, 9, 10, 11, 12, 13]) ∧
  (∀ text : List Char, (∀ c ∈ text, isSeparator c = false) → tokens text = if text = [] then [] else [text]) ∧
  (∀ (before after : List Char) (c : Char), isSeparator c = true →
    tokens (before ++ c :: after) = tokens before ++ tokens after) ∧
  (∀ (c : Char) (d : Nat), hexDigit c = some d ↔
    "0123456789abcdef".toList[d]? = some c ∨ "0123456789ABCDEF".toList[d]? = some c) ∧
  (∀ (token : List Char) (w : Word), tokenWord token = some w ↔
    token ≠ [] ∧ ∃ digits : List Nat, token.map hexDigit = digits.map some ∧
      digits.foldl (fun value d => 16 * value + d) 0 = w.toNat)

/-- A successful LOAD of K tokens writes exactly memory[0] to memory[K−1], token k to memory[k], and nothing else
(70_reset_and_hazards.md section 2): the spec's decision D21. Rests on the spec's decision D21 (log 19). -/
def Obligations.LoadWritesTheImageFromZero : Prop :=
  ∀ (filename : String) (text : List Char) (s t : State), load filename (some text) s = (.done, t) →
    t = s.setMemory t.memory ∧ (tokens text).length ≤ s.config.memSize ∧
    ∀ k, (∀ token, (tokens text)[k]? = some token → tokenWord token = some (t.memory.read k)) ∧
      ((tokens text)[k]? = none → t.memory.read k = s.memory.read k)

/-- A LOAD that fails changes nothing (70_reset_and_hazards.md section 2): a missing file is reported by name, and a
malformed image by the index of its first bad token, one that is not legal or lies beyond memory (D21). Rests on the
spec's decision D21 (log 19). -/
def Obligations.FailedLoadChangesNothing : Prop :=
  ∀ (filename : String) (text : List Char) (s : State),
    load filename none s = (.failed (.fileNotFound filename), s) ∧
    (∀ f t, load filename (some text) s = (.failed f, t) →
      t = s ∧ ∃ k, f = .malformedImageError k ∧
        (∃ token, (tokens text)[k]? = some token ∧ (tokenWord token = none ∨ s.config.memSize ≤ k)) ∧
        ∀ j token, j < k → (tokens text)[j]? = some token → (tokenWord token).isSome = true ∧ j < s.config.memSize)

/-- The host's memory accessor checks its bound: beyond memory the write is refused and nothing is written
(10_state.md section 7). -/
def Obligations.HostMemoryWriteIsBoundsChecked : Prop :=
  ∀ (k : Nat) (v : Word) (s : State),
    (s.config.memSize ≤ k → hostWrite (.memory k v) s = (.outOfBounds, s) ∧ hostReadMemory k s = none) ∧
    (k < s.config.memSize → ∃ t, hostWrite (.memory k v) s = (.done, t) ∧ hostReadMemory k t = some v ∧
      ∀ j, j ≠ k → hostReadMemory j t = hostReadMemory j s)

/-- RUN is STEP after STEP (40_cycle.md section 3; V-SRC-5). From a state s whose step, with no stop request, leaves
u: if that step does not complete, RUN returns what the step of s returns. If it completes, RUN goes on from u with no
stop request; with a request that k checks do not find, RUN is stopped as the step of s is if k is less than the
checks left inside the pass; it is stopped between STORE and the next FETCH, in u with phase = FETCH, if k is equal to
them; and it goes on from u, with the request that many checks and one nearer, if k is greater. Where a stop is
checked is the spec's decision D16; holding the request as a count is the model's choice (log 6), as is RUN's bound
(log 21). Rests on the spec's decisions D16 and D17 (log 7) and D28 (log 16); and on the model's log 6 and log 21. -/
def Obligations.RunIsStepAfterStep : Prop :=
  ∀ (s u : State) (bound : Nat), step (s.setStopRequest none) = .next u →
    (u.result ≠ some .stepped → run (bound + 1) s = some (step s)) ∧
    (u.result = some .stepped →
      (s.stopRequest = none → run (bound + 1) s = run bound u) ∧
      ∀ k, s.stopRequest = some k →
        (k < s.phase.checksLeft →
          ∃ t, step s = .next t ∧ t.result = some .stopped ∧ run (bound + 1) s = some (.next t)) ∧
        (k = s.phase.checksLeft →
          run (bound + 1) s = some (.next (u.setResult (some .stopped))) ∧ u.phase = .fetch) ∧
        (s.phase.checksLeft < k →
          run (bound + 1) s = run bound (u.setStopRequest (some (k - s.phase.checksLeft - 1)))))
end

