-- ==== Sys2Proof/Laws/State.lean ====
section
/-! SUPPORT. One lemma per field per update of the state, so that no proof unfolds a record update; and the register
file's laws. -/

namespace Sys2Proof.Machine.State

/-! ### `setReg` -/

@[simp] theorem setReg_regs (s : State) (i : Reg) (v : Word) : (s.setReg i v).regs = s.regs.set i.val v := rfl
@[simp] theorem setReg_pc (s : State) (i : Reg) (v : Word) : (s.setReg i v).pc = s.pc := rfl
@[simp] theorem setReg_flags (s : State) (i : Reg) (v : Word) : (s.setReg i v).flags = s.flags := rfl
@[simp] theorem setReg_ir (s : State) (i : Reg) (v : Word) : (s.setReg i v).ir = s.ir := rfl
@[simp] theorem setReg_currentPC (s : State) (i : Reg) (v : Word) : (s.setReg i v).currentPC = s.currentPC := rfl
@[simp] theorem setReg_a (s : State) (i : Reg) (v : Word) : (s.setReg i v).a = s.a := rfl
@[simp] theorem setReg_b (s : State) (i : Reg) (v : Word) : (s.setReg i v).b = s.b := rfl
@[simp] theorem setReg_r (s : State) (i : Reg) (v : Word) : (s.setReg i v).r = s.r := rfl
@[simp] theorem setReg_mar (s : State) (i : Reg) (v : Word) : (s.setReg i v).mar = s.mar := rfl
@[simp] theorem setReg_mdr (s : State) (i : Reg) (v : Word) : (s.setReg i v).mdr = s.mdr := rfl
@[simp] theorem setReg_sext (s : State) (i : Reg) (v : Word) : (s.setReg i v).sext = s.sext := rfl
@[simp] theorem setReg_req (s : State) (i : Reg) (v : Word) : (s.setReg i v).req = s.req := rfl
@[simp] theorem setReg_phase (s : State) (i : Reg) (v : Word) : (s.setReg i v).phase = s.phase := rfl
@[simp] theorem setReg_startAddress (s : State) (i : Reg) (v : Word) : (s.setReg i v).startAddress = s.startAddress := rfl
@[simp] theorem setReg_memory (s : State) (i : Reg) (v : Word) : (s.setReg i v).memory = s.memory := rfl
@[simp] theorem setReg_config (s : State) (i : Reg) (v : Word) : (s.setReg i v).config = s.config := rfl
@[simp] theorem setReg_stopRequest (s : State) (i : Reg) (v : Word) : (s.setReg i v).stopRequest = s.stopRequest := rfl
@[simp] theorem setReg_result (s : State) (i : Reg) (v : Word) : (s.setReg i v).result = s.result := rfl
@[simp] theorem setReg_inBounds (s : State) (i : Reg) (v : Word) (x : Word) : (s.setReg i v).inBounds x = s.inBounds x := rfl
@[simp] theorem setReg_memRead (s : State) (i : Reg) (v : Word) (x : Word) : (s.setReg i v).memRead x = s.memRead x := rfl

/-! ### `setPc` -/

@[simp] theorem setPc_regs (s : State) (v : Word) : (s.setPc v).regs = s.regs := rfl
@[simp] theorem setPc_pc (s : State) (v : Word) : (s.setPc v).pc = v := rfl
@[simp] theorem setPc_flags (s : State) (v : Word) : (s.setPc v).flags = s.flags := rfl
@[simp] theorem setPc_ir (s : State) (v : Word) : (s.setPc v).ir = s.ir := rfl
@[simp] theorem setPc_currentPC (s : State) (v : Word) : (s.setPc v).currentPC = s.currentPC := rfl
@[simp] theorem setPc_a (s : State) (v : Word) : (s.setPc v).a = s.a := rfl
@[simp] theorem setPc_b (s : State) (v : Word) : (s.setPc v).b = s.b := rfl
@[simp] theorem setPc_r (s : State) (v : Word) : (s.setPc v).r = s.r := rfl
@[simp] theorem setPc_mar (s : State) (v : Word) : (s.setPc v).mar = s.mar := rfl
@[simp] theorem setPc_mdr (s : State) (v : Word) : (s.setPc v).mdr = s.mdr := rfl
@[simp] theorem setPc_sext (s : State) (v : Word) : (s.setPc v).sext = s.sext := rfl
@[simp] theorem setPc_req (s : State) (v : Word) : (s.setPc v).req = s.req := rfl
@[simp] theorem setPc_phase (s : State) (v : Word) : (s.setPc v).phase = s.phase := rfl
@[simp] theorem setPc_startAddress (s : State) (v : Word) : (s.setPc v).startAddress = s.startAddress := rfl
@[simp] theorem setPc_memory (s : State) (v : Word) : (s.setPc v).memory = s.memory := rfl
@[simp] theorem setPc_config (s : State) (v : Word) : (s.setPc v).config = s.config := rfl
@[simp] theorem setPc_stopRequest (s : State) (v : Word) : (s.setPc v).stopRequest = s.stopRequest := rfl
@[simp] theorem setPc_result (s : State) (v : Word) : (s.setPc v).result = s.result := rfl
@[simp] theorem setPc_reg (s : State) (v : Word) (j : Reg) : (s.setPc v).reg j = s.reg j := rfl
@[simp] theorem setPc_inBounds (s : State) (v : Word) (x : Word) : (s.setPc v).inBounds x = s.inBounds x := rfl
@[simp] theorem setPc_memRead (s : State) (v : Word) (x : Word) : (s.setPc v).memRead x = s.memRead x := rfl

/-! ### `setFlags` -/

@[simp] theorem setFlags_regs (s : State) (v : CondFlags) : (s.setFlags v).regs = s.regs := rfl
@[simp] theorem setFlags_pc (s : State) (v : CondFlags) : (s.setFlags v).pc = s.pc := rfl
@[simp] theorem setFlags_flags (s : State) (v : CondFlags) : (s.setFlags v).flags = v := rfl
@[simp] theorem setFlags_ir (s : State) (v : CondFlags) : (s.setFlags v).ir = s.ir := rfl
@[simp] theorem setFlags_currentPC (s : State) (v : CondFlags) : (s.setFlags v).currentPC = s.currentPC := rfl
@[simp] theorem setFlags_a (s : State) (v : CondFlags) : (s.setFlags v).a = s.a := rfl
@[simp] theorem setFlags_b (s : State) (v : CondFlags) : (s.setFlags v).b = s.b := rfl
@[simp] theorem setFlags_r (s : State) (v : CondFlags) : (s.setFlags v).r = s.r := rfl
@[simp] theorem setFlags_mar (s : State) (v : CondFlags) : (s.setFlags v).mar = s.mar := rfl
@[simp] theorem setFlags_mdr (s : State) (v : CondFlags) : (s.setFlags v).mdr = s.mdr := rfl
@[simp] theorem setFlags_sext (s : State) (v : CondFlags) : (s.setFlags v).sext = s.sext := rfl
@[simp] theorem setFlags_req (s : State) (v : CondFlags) : (s.setFlags v).req = s.req := rfl
@[simp] theorem setFlags_phase (s : State) (v : CondFlags) : (s.setFlags v).phase = s.phase := rfl
@[simp] theorem setFlags_startAddress (s : State) (v : CondFlags) : (s.setFlags v).startAddress = s.startAddress := rfl
@[simp] theorem setFlags_memory (s : State) (v : CondFlags) : (s.setFlags v).memory = s.memory := rfl
@[simp] theorem setFlags_config (s : State) (v : CondFlags) : (s.setFlags v).config = s.config := rfl
@[simp] theorem setFlags_stopRequest (s : State) (v : CondFlags) : (s.setFlags v).stopRequest = s.stopRequest := rfl
@[simp] theorem setFlags_result (s : State) (v : CondFlags) : (s.setFlags v).result = s.result := rfl
@[simp] theorem setFlags_reg (s : State) (v : CondFlags) (j : Reg) : (s.setFlags v).reg j = s.reg j := rfl
@[simp] theorem setFlags_inBounds (s : State) (v : CondFlags) (x : Word) : (s.setFlags v).inBounds x = s.inBounds x := rfl
@[simp] theorem setFlags_memRead (s : State) (v : CondFlags) (x : Word) : (s.setFlags v).memRead x = s.memRead x := rfl

/-! ### `setIr` -/

@[simp] theorem setIr_regs (s : State) (v : Word) : (s.setIr v).regs = s.regs := rfl
@[simp] theorem setIr_pc (s : State) (v : Word) : (s.setIr v).pc = s.pc := rfl
@[simp] theorem setIr_flags (s : State) (v : Word) : (s.setIr v).flags = s.flags := rfl
@[simp] theorem setIr_ir (s : State) (v : Word) : (s.setIr v).ir = v := rfl
@[simp] theorem setIr_currentPC (s : State) (v : Word) : (s.setIr v).currentPC = s.currentPC := rfl
@[simp] theorem setIr_a (s : State) (v : Word) : (s.setIr v).a = s.a := rfl
@[simp] theorem setIr_b (s : State) (v : Word) : (s.setIr v).b = s.b := rfl
@[simp] theorem setIr_r (s : State) (v : Word) : (s.setIr v).r = s.r := rfl
@[simp] theorem setIr_mar (s : State) (v : Word) : (s.setIr v).mar = s.mar := rfl
@[simp] theorem setIr_mdr (s : State) (v : Word) : (s.setIr v).mdr = s.mdr := rfl
@[simp] theorem setIr_sext (s : State) (v : Word) : (s.setIr v).sext = s.sext := rfl
@[simp] theorem setIr_req (s : State) (v : Word) : (s.setIr v).req = s.req := rfl
@[simp] theorem setIr_phase (s : State) (v : Word) : (s.setIr v).phase = s.phase := rfl
@[simp] theorem setIr_startAddress (s : State) (v : Word) : (s.setIr v).startAddress = s.startAddress := rfl
@[simp] theorem setIr_memory (s : State) (v : Word) : (s.setIr v).memory = s.memory := rfl
@[simp] theorem setIr_config (s : State) (v : Word) : (s.setIr v).config = s.config := rfl
@[simp] theorem setIr_stopRequest (s : State) (v : Word) : (s.setIr v).stopRequest = s.stopRequest := rfl
@[simp] theorem setIr_result (s : State) (v : Word) : (s.setIr v).result = s.result := rfl
@[simp] theorem setIr_reg (s : State) (v : Word) (j : Reg) : (s.setIr v).reg j = s.reg j := rfl
@[simp] theorem setIr_inBounds (s : State) (v : Word) (x : Word) : (s.setIr v).inBounds x = s.inBounds x := rfl
@[simp] theorem setIr_memRead (s : State) (v : Word) (x : Word) : (s.setIr v).memRead x = s.memRead x := rfl

/-! ### `setCurrentPC` -/

@[simp] theorem setCurrentPC_regs (s : State) (v : Word) : (s.setCurrentPC v).regs = s.regs := rfl
@[simp] theorem setCurrentPC_pc (s : State) (v : Word) : (s.setCurrentPC v).pc = s.pc := rfl
@[simp] theorem setCurrentPC_flags (s : State) (v : Word) : (s.setCurrentPC v).flags = s.flags := rfl
@[simp] theorem setCurrentPC_ir (s : State) (v : Word) : (s.setCurrentPC v).ir = s.ir := rfl
@[simp] theorem setCurrentPC_currentPC (s : State) (v : Word) : (s.setCurrentPC v).currentPC = v := rfl
@[simp] theorem setCurrentPC_a (s : State) (v : Word) : (s.setCurrentPC v).a = s.a := rfl
@[simp] theorem setCurrentPC_b (s : State) (v : Word) : (s.setCurrentPC v).b = s.b := rfl
@[simp] theorem setCurrentPC_r (s : State) (v : Word) : (s.setCurrentPC v).r = s.r := rfl
@[simp] theorem setCurrentPC_mar (s : State) (v : Word) : (s.setCurrentPC v).mar = s.mar := rfl
@[simp] theorem setCurrentPC_mdr (s : State) (v : Word) : (s.setCurrentPC v).mdr = s.mdr := rfl
@[simp] theorem setCurrentPC_sext (s : State) (v : Word) : (s.setCurrentPC v).sext = s.sext := rfl
@[simp] theorem setCurrentPC_req (s : State) (v : Word) : (s.setCurrentPC v).req = s.req := rfl
@[simp] theorem setCurrentPC_phase (s : State) (v : Word) : (s.setCurrentPC v).phase = s.phase := rfl
@[simp] theorem setCurrentPC_startAddress (s : State) (v : Word) : (s.setCurrentPC v).startAddress = s.startAddress := rfl
@[simp] theorem setCurrentPC_memory (s : State) (v : Word) : (s.setCurrentPC v).memory = s.memory := rfl
@[simp] theorem setCurrentPC_config (s : State) (v : Word) : (s.setCurrentPC v).config = s.config := rfl
@[simp] theorem setCurrentPC_stopRequest (s : State) (v : Word) : (s.setCurrentPC v).stopRequest = s.stopRequest := rfl
@[simp] theorem setCurrentPC_result (s : State) (v : Word) : (s.setCurrentPC v).result = s.result := rfl
@[simp] theorem setCurrentPC_reg (s : State) (v : Word) (j : Reg) : (s.setCurrentPC v).reg j = s.reg j := rfl
@[simp] theorem setCurrentPC_inBounds (s : State) (v : Word) (x : Word) : (s.setCurrentPC v).inBounds x = s.inBounds x := rfl
@[simp] theorem setCurrentPC_memRead (s : State) (v : Word) (x : Word) : (s.setCurrentPC v).memRead x = s.memRead x := rfl

/-! ### `setA` -/

@[simp] theorem setA_regs (s : State) (v : Word) : (s.setA v).regs = s.regs := rfl
@[simp] theorem setA_pc (s : State) (v : Word) : (s.setA v).pc = s.pc := rfl
@[simp] theorem setA_flags (s : State) (v : Word) : (s.setA v).flags = s.flags := rfl
@[simp] theorem setA_ir (s : State) (v : Word) : (s.setA v).ir = s.ir := rfl
@[simp] theorem setA_currentPC (s : State) (v : Word) : (s.setA v).currentPC = s.currentPC := rfl
@[simp] theorem setA_a (s : State) (v : Word) : (s.setA v).a = v := rfl
@[simp] theorem setA_b (s : State) (v : Word) : (s.setA v).b = s.b := rfl
@[simp] theorem setA_r (s : State) (v : Word) : (s.setA v).r = s.r := rfl
@[simp] theorem setA_mar (s : State) (v : Word) : (s.setA v).mar = s.mar := rfl
@[simp] theorem setA_mdr (s : State) (v : Word) : (s.setA v).mdr = s.mdr := rfl
@[simp] theorem setA_sext (s : State) (v : Word) : (s.setA v).sext = s.sext := rfl
@[simp] theorem setA_req (s : State) (v : Word) : (s.setA v).req = s.req := rfl
@[simp] theorem setA_phase (s : State) (v : Word) : (s.setA v).phase = s.phase := rfl
@[simp] theorem setA_startAddress (s : State) (v : Word) : (s.setA v).startAddress = s.startAddress := rfl
@[simp] theorem setA_memory (s : State) (v : Word) : (s.setA v).memory = s.memory := rfl
@[simp] theorem setA_config (s : State) (v : Word) : (s.setA v).config = s.config := rfl
@[simp] theorem setA_stopRequest (s : State) (v : Word) : (s.setA v).stopRequest = s.stopRequest := rfl
@[simp] theorem setA_result (s : State) (v : Word) : (s.setA v).result = s.result := rfl
@[simp] theorem setA_reg (s : State) (v : Word) (j : Reg) : (s.setA v).reg j = s.reg j := rfl
@[simp] theorem setA_inBounds (s : State) (v : Word) (x : Word) : (s.setA v).inBounds x = s.inBounds x := rfl
@[simp] theorem setA_memRead (s : State) (v : Word) (x : Word) : (s.setA v).memRead x = s.memRead x := rfl

/-! ### `setB` -/

@[simp] theorem setB_regs (s : State) (v : Word) : (s.setB v).regs = s.regs := rfl
@[simp] theorem setB_pc (s : State) (v : Word) : (s.setB v).pc = s.pc := rfl
@[simp] theorem setB_flags (s : State) (v : Word) : (s.setB v).flags = s.flags := rfl
@[simp] theorem setB_ir (s : State) (v : Word) : (s.setB v).ir = s.ir := rfl
@[simp] theorem setB_currentPC (s : State) (v : Word) : (s.setB v).currentPC = s.currentPC := rfl
@[simp] theorem setB_a (s : State) (v : Word) : (s.setB v).a = s.a := rfl
@[simp] theorem setB_b (s : State) (v : Word) : (s.setB v).b = v := rfl
@[simp] theorem setB_r (s : State) (v : Word) : (s.setB v).r = s.r := rfl
@[simp] theorem setB_mar (s : State) (v : Word) : (s.setB v).mar = s.mar := rfl
@[simp] theorem setB_mdr (s : State) (v : Word) : (s.setB v).mdr = s.mdr := rfl
@[simp] theorem setB_sext (s : State) (v : Word) : (s.setB v).sext = s.sext := rfl
@[simp] theorem setB_req (s : State) (v : Word) : (s.setB v).req = s.req := rfl
@[simp] theorem setB_phase (s : State) (v : Word) : (s.setB v).phase = s.phase := rfl
@[simp] theorem setB_startAddress (s : State) (v : Word) : (s.setB v).startAddress = s.startAddress := rfl
@[simp] theorem setB_memory (s : State) (v : Word) : (s.setB v).memory = s.memory := rfl
@[simp] theorem setB_config (s : State) (v : Word) : (s.setB v).config = s.config := rfl
@[simp] theorem setB_stopRequest (s : State) (v : Word) : (s.setB v).stopRequest = s.stopRequest := rfl
@[simp] theorem setB_result (s : State) (v : Word) : (s.setB v).result = s.result := rfl
@[simp] theorem setB_reg (s : State) (v : Word) (j : Reg) : (s.setB v).reg j = s.reg j := rfl
@[simp] theorem setB_inBounds (s : State) (v : Word) (x : Word) : (s.setB v).inBounds x = s.inBounds x := rfl
@[simp] theorem setB_memRead (s : State) (v : Word) (x : Word) : (s.setB v).memRead x = s.memRead x := rfl

/-! ### `setR` -/

@[simp] theorem setR_regs (s : State) (v : Word) : (s.setR v).regs = s.regs := rfl
@[simp] theorem setR_pc (s : State) (v : Word) : (s.setR v).pc = s.pc := rfl
@[simp] theorem setR_flags (s : State) (v : Word) : (s.setR v).flags = s.flags := rfl
@[simp] theorem setR_ir (s : State) (v : Word) : (s.setR v).ir = s.ir := rfl
@[simp] theorem setR_currentPC (s : State) (v : Word) : (s.setR v).currentPC = s.currentPC := rfl
@[simp] theorem setR_a (s : State) (v : Word) : (s.setR v).a = s.a := rfl
@[simp] theorem setR_b (s : State) (v : Word) : (s.setR v).b = s.b := rfl
@[simp] theorem setR_r (s : State) (v : Word) : (s.setR v).r = v := rfl
@[simp] theorem setR_mar (s : State) (v : Word) : (s.setR v).mar = s.mar := rfl
@[simp] theorem setR_mdr (s : State) (v : Word) : (s.setR v).mdr = s.mdr := rfl
@[simp] theorem setR_sext (s : State) (v : Word) : (s.setR v).sext = s.sext := rfl
@[simp] theorem setR_req (s : State) (v : Word) : (s.setR v).req = s.req := rfl
@[simp] theorem setR_phase (s : State) (v : Word) : (s.setR v).phase = s.phase := rfl
@[simp] theorem setR_startAddress (s : State) (v : Word) : (s.setR v).startAddress = s.startAddress := rfl
@[simp] theorem setR_memory (s : State) (v : Word) : (s.setR v).memory = s.memory := rfl
@[simp] theorem setR_config (s : State) (v : Word) : (s.setR v).config = s.config := rfl
@[simp] theorem setR_stopRequest (s : State) (v : Word) : (s.setR v).stopRequest = s.stopRequest := rfl
@[simp] theorem setR_result (s : State) (v : Word) : (s.setR v).result = s.result := rfl
@[simp] theorem setR_reg (s : State) (v : Word) (j : Reg) : (s.setR v).reg j = s.reg j := rfl
@[simp] theorem setR_inBounds (s : State) (v : Word) (x : Word) : (s.setR v).inBounds x = s.inBounds x := rfl
@[simp] theorem setR_memRead (s : State) (v : Word) (x : Word) : (s.setR v).memRead x = s.memRead x := rfl

/-! ### `setMar` -/

@[simp] theorem setMar_regs (s : State) (v : Word) : (s.setMar v).regs = s.regs := rfl
@[simp] theorem setMar_pc (s : State) (v : Word) : (s.setMar v).pc = s.pc := rfl
@[simp] theorem setMar_flags (s : State) (v : Word) : (s.setMar v).flags = s.flags := rfl
@[simp] theorem setMar_ir (s : State) (v : Word) : (s.setMar v).ir = s.ir := rfl
@[simp] theorem setMar_currentPC (s : State) (v : Word) : (s.setMar v).currentPC = s.currentPC := rfl
@[simp] theorem setMar_a (s : State) (v : Word) : (s.setMar v).a = s.a := rfl
@[simp] theorem setMar_b (s : State) (v : Word) : (s.setMar v).b = s.b := rfl
@[simp] theorem setMar_r (s : State) (v : Word) : (s.setMar v).r = s.r := rfl
@[simp] theorem setMar_mar (s : State) (v : Word) : (s.setMar v).mar = v := rfl
@[simp] theorem setMar_mdr (s : State) (v : Word) : (s.setMar v).mdr = s.mdr := rfl
@[simp] theorem setMar_sext (s : State) (v : Word) : (s.setMar v).sext = s.sext := rfl
@[simp] theorem setMar_req (s : State) (v : Word) : (s.setMar v).req = s.req := rfl
@[simp] theorem setMar_phase (s : State) (v : Word) : (s.setMar v).phase = s.phase := rfl
@[simp] theorem setMar_startAddress (s : State) (v : Word) : (s.setMar v).startAddress = s.startAddress := rfl
@[simp] theorem setMar_memory (s : State) (v : Word) : (s.setMar v).memory = s.memory := rfl
@[simp] theorem setMar_config (s : State) (v : Word) : (s.setMar v).config = s.config := rfl
@[simp] theorem setMar_stopRequest (s : State) (v : Word) : (s.setMar v).stopRequest = s.stopRequest := rfl
@[simp] theorem setMar_result (s : State) (v : Word) : (s.setMar v).result = s.result := rfl
@[simp] theorem setMar_reg (s : State) (v : Word) (j : Reg) : (s.setMar v).reg j = s.reg j := rfl
@[simp] theorem setMar_inBounds (s : State) (v : Word) (x : Word) : (s.setMar v).inBounds x = s.inBounds x := rfl
@[simp] theorem setMar_memRead (s : State) (v : Word) (x : Word) : (s.setMar v).memRead x = s.memRead x := rfl

/-! ### `setMdr` -/

@[simp] theorem setMdr_regs (s : State) (v : Word) : (s.setMdr v).regs = s.regs := rfl
@[simp] theorem setMdr_pc (s : State) (v : Word) : (s.setMdr v).pc = s.pc := rfl
@[simp] theorem setMdr_flags (s : State) (v : Word) : (s.setMdr v).flags = s.flags := rfl
@[simp] theorem setMdr_ir (s : State) (v : Word) : (s.setMdr v).ir = s.ir := rfl
@[simp] theorem setMdr_currentPC (s : State) (v : Word) : (s.setMdr v).currentPC = s.currentPC := rfl
@[simp] theorem setMdr_a (s : State) (v : Word) : (s.setMdr v).a = s.a := rfl
@[simp] theorem setMdr_b (s : State) (v : Word) : (s.setMdr v).b = s.b := rfl
@[simp] theorem setMdr_r (s : State) (v : Word) : (s.setMdr v).r = s.r := rfl
@[simp] theorem setMdr_mar (s : State) (v : Word) : (s.setMdr v).mar = s.mar := rfl
@[simp] theorem setMdr_mdr (s : State) (v : Word) : (s.setMdr v).mdr = v := rfl
@[simp] theorem setMdr_sext (s : State) (v : Word) : (s.setMdr v).sext = s.sext := rfl
@[simp] theorem setMdr_req (s : State) (v : Word) : (s.setMdr v).req = s.req := rfl
@[simp] theorem setMdr_phase (s : State) (v : Word) : (s.setMdr v).phase = s.phase := rfl
@[simp] theorem setMdr_startAddress (s : State) (v : Word) : (s.setMdr v).startAddress = s.startAddress := rfl
@[simp] theorem setMdr_memory (s : State) (v : Word) : (s.setMdr v).memory = s.memory := rfl
@[simp] theorem setMdr_config (s : State) (v : Word) : (s.setMdr v).config = s.config := rfl
@[simp] theorem setMdr_stopRequest (s : State) (v : Word) : (s.setMdr v).stopRequest = s.stopRequest := rfl
@[simp] theorem setMdr_result (s : State) (v : Word) : (s.setMdr v).result = s.result := rfl
@[simp] theorem setMdr_reg (s : State) (v : Word) (j : Reg) : (s.setMdr v).reg j = s.reg j := rfl
@[simp] theorem setMdr_inBounds (s : State) (v : Word) (x : Word) : (s.setMdr v).inBounds x = s.inBounds x := rfl
@[simp] theorem setMdr_memRead (s : State) (v : Word) (x : Word) : (s.setMdr v).memRead x = s.memRead x := rfl

/-! ### `setSext` -/

@[simp] theorem setSext_regs (s : State) (v : Word) : (s.setSext v).regs = s.regs := rfl
@[simp] theorem setSext_pc (s : State) (v : Word) : (s.setSext v).pc = s.pc := rfl
@[simp] theorem setSext_flags (s : State) (v : Word) : (s.setSext v).flags = s.flags := rfl
@[simp] theorem setSext_ir (s : State) (v : Word) : (s.setSext v).ir = s.ir := rfl
@[simp] theorem setSext_currentPC (s : State) (v : Word) : (s.setSext v).currentPC = s.currentPC := rfl
@[simp] theorem setSext_a (s : State) (v : Word) : (s.setSext v).a = s.a := rfl
@[simp] theorem setSext_b (s : State) (v : Word) : (s.setSext v).b = s.b := rfl
@[simp] theorem setSext_r (s : State) (v : Word) : (s.setSext v).r = s.r := rfl
@[simp] theorem setSext_mar (s : State) (v : Word) : (s.setSext v).mar = s.mar := rfl
@[simp] theorem setSext_mdr (s : State) (v : Word) : (s.setSext v).mdr = s.mdr := rfl
@[simp] theorem setSext_sext (s : State) (v : Word) : (s.setSext v).sext = v := rfl
@[simp] theorem setSext_req (s : State) (v : Word) : (s.setSext v).req = s.req := rfl
@[simp] theorem setSext_phase (s : State) (v : Word) : (s.setSext v).phase = s.phase := rfl
@[simp] theorem setSext_startAddress (s : State) (v : Word) : (s.setSext v).startAddress = s.startAddress := rfl
@[simp] theorem setSext_memory (s : State) (v : Word) : (s.setSext v).memory = s.memory := rfl
@[simp] theorem setSext_config (s : State) (v : Word) : (s.setSext v).config = s.config := rfl
@[simp] theorem setSext_stopRequest (s : State) (v : Word) : (s.setSext v).stopRequest = s.stopRequest := rfl
@[simp] theorem setSext_result (s : State) (v : Word) : (s.setSext v).result = s.result := rfl
@[simp] theorem setSext_reg (s : State) (v : Word) (j : Reg) : (s.setSext v).reg j = s.reg j := rfl
@[simp] theorem setSext_inBounds (s : State) (v : Word) (x : Word) : (s.setSext v).inBounds x = s.inBounds x := rfl
@[simp] theorem setSext_memRead (s : State) (v : Word) (x : Word) : (s.setSext v).memRead x = s.memRead x := rfl

/-! ### `setReq` -/

@[simp] theorem setReq_regs (s : State) (v : CondFlags) : (s.setReq v).regs = s.regs := rfl
@[simp] theorem setReq_pc (s : State) (v : CondFlags) : (s.setReq v).pc = s.pc := rfl
@[simp] theorem setReq_flags (s : State) (v : CondFlags) : (s.setReq v).flags = s.flags := rfl
@[simp] theorem setReq_ir (s : State) (v : CondFlags) : (s.setReq v).ir = s.ir := rfl
@[simp] theorem setReq_currentPC (s : State) (v : CondFlags) : (s.setReq v).currentPC = s.currentPC := rfl
@[simp] theorem setReq_a (s : State) (v : CondFlags) : (s.setReq v).a = s.a := rfl
@[simp] theorem setReq_b (s : State) (v : CondFlags) : (s.setReq v).b = s.b := rfl
@[simp] theorem setReq_r (s : State) (v : CondFlags) : (s.setReq v).r = s.r := rfl
@[simp] theorem setReq_mar (s : State) (v : CondFlags) : (s.setReq v).mar = s.mar := rfl
@[simp] theorem setReq_mdr (s : State) (v : CondFlags) : (s.setReq v).mdr = s.mdr := rfl
@[simp] theorem setReq_sext (s : State) (v : CondFlags) : (s.setReq v).sext = s.sext := rfl
@[simp] theorem setReq_req (s : State) (v : CondFlags) : (s.setReq v).req = v := rfl
@[simp] theorem setReq_phase (s : State) (v : CondFlags) : (s.setReq v).phase = s.phase := rfl
@[simp] theorem setReq_startAddress (s : State) (v : CondFlags) : (s.setReq v).startAddress = s.startAddress := rfl
@[simp] theorem setReq_memory (s : State) (v : CondFlags) : (s.setReq v).memory = s.memory := rfl
@[simp] theorem setReq_config (s : State) (v : CondFlags) : (s.setReq v).config = s.config := rfl
@[simp] theorem setReq_stopRequest (s : State) (v : CondFlags) : (s.setReq v).stopRequest = s.stopRequest := rfl
@[simp] theorem setReq_result (s : State) (v : CondFlags) : (s.setReq v).result = s.result := rfl
@[simp] theorem setReq_reg (s : State) (v : CondFlags) (j : Reg) : (s.setReq v).reg j = s.reg j := rfl
@[simp] theorem setReq_inBounds (s : State) (v : CondFlags) (x : Word) : (s.setReq v).inBounds x = s.inBounds x := rfl
@[simp] theorem setReq_memRead (s : State) (v : CondFlags) (x : Word) : (s.setReq v).memRead x = s.memRead x := rfl

/-! ### `setPhase` -/

@[simp] theorem setPhase_regs (s : State) (v : Phase) : (s.setPhase v).regs = s.regs := rfl
@[simp] theorem setPhase_pc (s : State) (v : Phase) : (s.setPhase v).pc = s.pc := rfl
@[simp] theorem setPhase_flags (s : State) (v : Phase) : (s.setPhase v).flags = s.flags := rfl
@[simp] theorem setPhase_ir (s : State) (v : Phase) : (s.setPhase v).ir = s.ir := rfl
@[simp] theorem setPhase_currentPC (s : State) (v : Phase) : (s.setPhase v).currentPC = s.currentPC := rfl
@[simp] theorem setPhase_a (s : State) (v : Phase) : (s.setPhase v).a = s.a := rfl
@[simp] theorem setPhase_b (s : State) (v : Phase) : (s.setPhase v).b = s.b := rfl
@[simp] theorem setPhase_r (s : State) (v : Phase) : (s.setPhase v).r = s.r := rfl
@[simp] theorem setPhase_mar (s : State) (v : Phase) : (s.setPhase v).mar = s.mar := rfl
@[simp] theorem setPhase_mdr (s : State) (v : Phase) : (s.setPhase v).mdr = s.mdr := rfl
@[simp] theorem setPhase_sext (s : State) (v : Phase) : (s.setPhase v).sext = s.sext := rfl
@[simp] theorem setPhase_req (s : State) (v : Phase) : (s.setPhase v).req = s.req := rfl
@[simp] theorem setPhase_phase (s : State) (v : Phase) : (s.setPhase v).phase = v := rfl
@[simp] theorem setPhase_startAddress (s : State) (v : Phase) : (s.setPhase v).startAddress = s.startAddress := rfl
@[simp] theorem setPhase_memory (s : State) (v : Phase) : (s.setPhase v).memory = s.memory := rfl
@[simp] theorem setPhase_config (s : State) (v : Phase) : (s.setPhase v).config = s.config := rfl
@[simp] theorem setPhase_stopRequest (s : State) (v : Phase) : (s.setPhase v).stopRequest = s.stopRequest := rfl
@[simp] theorem setPhase_result (s : State) (v : Phase) : (s.setPhase v).result = s.result := rfl
@[simp] theorem setPhase_reg (s : State) (v : Phase) (j : Reg) : (s.setPhase v).reg j = s.reg j := rfl
@[simp] theorem setPhase_inBounds (s : State) (v : Phase) (x : Word) : (s.setPhase v).inBounds x = s.inBounds x := rfl
@[simp] theorem setPhase_memRead (s : State) (v : Phase) (x : Word) : (s.setPhase v).memRead x = s.memRead x := rfl

/-! ### `setStartAddress` -/

@[simp] theorem setStartAddress_regs (s : State) (v : Word) : (s.setStartAddress v).regs = s.regs := rfl
@[simp] theorem setStartAddress_pc (s : State) (v : Word) : (s.setStartAddress v).pc = s.pc := rfl
@[simp] theorem setStartAddress_flags (s : State) (v : Word) : (s.setStartAddress v).flags = s.flags := rfl
@[simp] theorem setStartAddress_ir (s : State) (v : Word) : (s.setStartAddress v).ir = s.ir := rfl
@[simp] theorem setStartAddress_currentPC (s : State) (v : Word) : (s.setStartAddress v).currentPC = s.currentPC := rfl
@[simp] theorem setStartAddress_a (s : State) (v : Word) : (s.setStartAddress v).a = s.a := rfl
@[simp] theorem setStartAddress_b (s : State) (v : Word) : (s.setStartAddress v).b = s.b := rfl
@[simp] theorem setStartAddress_r (s : State) (v : Word) : (s.setStartAddress v).r = s.r := rfl
@[simp] theorem setStartAddress_mar (s : State) (v : Word) : (s.setStartAddress v).mar = s.mar := rfl
@[simp] theorem setStartAddress_mdr (s : State) (v : Word) : (s.setStartAddress v).mdr = s.mdr := rfl
@[simp] theorem setStartAddress_sext (s : State) (v : Word) : (s.setStartAddress v).sext = s.sext := rfl
@[simp] theorem setStartAddress_req (s : State) (v : Word) : (s.setStartAddress v).req = s.req := rfl
@[simp] theorem setStartAddress_phase (s : State) (v : Word) : (s.setStartAddress v).phase = s.phase := rfl
@[simp] theorem setStartAddress_startAddress (s : State) (v : Word) : (s.setStartAddress v).startAddress = v := rfl
@[simp] theorem setStartAddress_memory (s : State) (v : Word) : (s.setStartAddress v).memory = s.memory := rfl
@[simp] theorem setStartAddress_config (s : State) (v : Word) : (s.setStartAddress v).config = s.config := rfl
@[simp] theorem setStartAddress_stopRequest (s : State) (v : Word) : (s.setStartAddress v).stopRequest = s.stopRequest := rfl
@[simp] theorem setStartAddress_result (s : State) (v : Word) : (s.setStartAddress v).result = s.result := rfl
@[simp] theorem setStartAddress_reg (s : State) (v : Word) (j : Reg) : (s.setStartAddress v).reg j = s.reg j := rfl
@[simp] theorem setStartAddress_inBounds (s : State) (v : Word) (x : Word) : (s.setStartAddress v).inBounds x = s.inBounds x := rfl
@[simp] theorem setStartAddress_memRead (s : State) (v : Word) (x : Word) : (s.setStartAddress v).memRead x = s.memRead x := rfl

/-! ### `setMemory` -/

@[simp] theorem setMemory_regs (s : State) (v : Memory) : (s.setMemory v).regs = s.regs := rfl
@[simp] theorem setMemory_pc (s : State) (v : Memory) : (s.setMemory v).pc = s.pc := rfl
@[simp] theorem setMemory_flags (s : State) (v : Memory) : (s.setMemory v).flags = s.flags := rfl
@[simp] theorem setMemory_ir (s : State) (v : Memory) : (s.setMemory v).ir = s.ir := rfl
@[simp] theorem setMemory_currentPC (s : State) (v : Memory) : (s.setMemory v).currentPC = s.currentPC := rfl
@[simp] theorem setMemory_a (s : State) (v : Memory) : (s.setMemory v).a = s.a := rfl
@[simp] theorem setMemory_b (s : State) (v : Memory) : (s.setMemory v).b = s.b := rfl
@[simp] theorem setMemory_r (s : State) (v : Memory) : (s.setMemory v).r = s.r := rfl
@[simp] theorem setMemory_mar (s : State) (v : Memory) : (s.setMemory v).mar = s.mar := rfl
@[simp] theorem setMemory_mdr (s : State) (v : Memory) : (s.setMemory v).mdr = s.mdr := rfl
@[simp] theorem setMemory_sext (s : State) (v : Memory) : (s.setMemory v).sext = s.sext := rfl
@[simp] theorem setMemory_req (s : State) (v : Memory) : (s.setMemory v).req = s.req := rfl
@[simp] theorem setMemory_phase (s : State) (v : Memory) : (s.setMemory v).phase = s.phase := rfl
@[simp] theorem setMemory_startAddress (s : State) (v : Memory) : (s.setMemory v).startAddress = s.startAddress := rfl
@[simp] theorem setMemory_memory (s : State) (v : Memory) : (s.setMemory v).memory = v := rfl
@[simp] theorem setMemory_config (s : State) (v : Memory) : (s.setMemory v).config = s.config := rfl
@[simp] theorem setMemory_stopRequest (s : State) (v : Memory) : (s.setMemory v).stopRequest = s.stopRequest := rfl
@[simp] theorem setMemory_result (s : State) (v : Memory) : (s.setMemory v).result = s.result := rfl
@[simp] theorem setMemory_reg (s : State) (v : Memory) (j : Reg) : (s.setMemory v).reg j = s.reg j := rfl
@[simp] theorem setMemory_inBounds (s : State) (v : Memory) (x : Word) : (s.setMemory v).inBounds x = s.inBounds x := rfl

/-! ### `setStopRequest` -/

@[simp] theorem setStopRequest_regs (s : State) (v : Option Nat) : (s.setStopRequest v).regs = s.regs := rfl
@[simp] theorem setStopRequest_pc (s : State) (v : Option Nat) : (s.setStopRequest v).pc = s.pc := rfl
@[simp] theorem setStopRequest_flags (s : State) (v : Option Nat) : (s.setStopRequest v).flags = s.flags := rfl
@[simp] theorem setStopRequest_ir (s : State) (v : Option Nat) : (s.setStopRequest v).ir = s.ir := rfl
@[simp] theorem setStopRequest_currentPC (s : State) (v : Option Nat) : (s.setStopRequest v).currentPC = s.currentPC := rfl
@[simp] theorem setStopRequest_a (s : State) (v : Option Nat) : (s.setStopRequest v).a = s.a := rfl
@[simp] theorem setStopRequest_b (s : State) (v : Option Nat) : (s.setStopRequest v).b = s.b := rfl
@[simp] theorem setStopRequest_r (s : State) (v : Option Nat) : (s.setStopRequest v).r = s.r := rfl
@[simp] theorem setStopRequest_mar (s : State) (v : Option Nat) : (s.setStopRequest v).mar = s.mar := rfl
@[simp] theorem setStopRequest_mdr (s : State) (v : Option Nat) : (s.setStopRequest v).mdr = s.mdr := rfl
@[simp] theorem setStopRequest_sext (s : State) (v : Option Nat) : (s.setStopRequest v).sext = s.sext := rfl
@[simp] theorem setStopRequest_req (s : State) (v : Option Nat) : (s.setStopRequest v).req = s.req := rfl
@[simp] theorem setStopRequest_phase (s : State) (v : Option Nat) : (s.setStopRequest v).phase = s.phase := rfl
@[simp] theorem setStopRequest_startAddress (s : State) (v : Option Nat) : (s.setStopRequest v).startAddress = s.startAddress := rfl
@[simp] theorem setStopRequest_memory (s : State) (v : Option Nat) : (s.setStopRequest v).memory = s.memory := rfl
@[simp] theorem setStopRequest_config (s : State) (v : Option Nat) : (s.setStopRequest v).config = s.config := rfl
@[simp] theorem setStopRequest_stopRequest (s : State) (v : Option Nat) : (s.setStopRequest v).stopRequest = v := rfl
@[simp] theorem setStopRequest_result (s : State) (v : Option Nat) : (s.setStopRequest v).result = s.result := rfl
@[simp] theorem setStopRequest_reg (s : State) (v : Option Nat) (j : Reg) : (s.setStopRequest v).reg j = s.reg j := rfl
@[simp] theorem setStopRequest_inBounds (s : State) (v : Option Nat) (x : Word) : (s.setStopRequest v).inBounds x = s.inBounds x := rfl
@[simp] theorem setStopRequest_memRead (s : State) (v : Option Nat) (x : Word) : (s.setStopRequest v).memRead x = s.memRead x := rfl

/-! ### `setResult` -/

@[simp] theorem setResult_regs (s : State) (v : Option Result) : (s.setResult v).regs = s.regs := rfl
@[simp] theorem setResult_pc (s : State) (v : Option Result) : (s.setResult v).pc = s.pc := rfl
@[simp] theorem setResult_flags (s : State) (v : Option Result) : (s.setResult v).flags = s.flags := rfl
@[simp] theorem setResult_ir (s : State) (v : Option Result) : (s.setResult v).ir = s.ir := rfl
@[simp] theorem setResult_currentPC (s : State) (v : Option Result) : (s.setResult v).currentPC = s.currentPC := rfl
@[simp] theorem setResult_a (s : State) (v : Option Result) : (s.setResult v).a = s.a := rfl
@[simp] theorem setResult_b (s : State) (v : Option Result) : (s.setResult v).b = s.b := rfl
@[simp] theorem setResult_r (s : State) (v : Option Result) : (s.setResult v).r = s.r := rfl
@[simp] theorem setResult_mar (s : State) (v : Option Result) : (s.setResult v).mar = s.mar := rfl
@[simp] theorem setResult_mdr (s : State) (v : Option Result) : (s.setResult v).mdr = s.mdr := rfl
@[simp] theorem setResult_sext (s : State) (v : Option Result) : (s.setResult v).sext = s.sext := rfl
@[simp] theorem setResult_req (s : State) (v : Option Result) : (s.setResult v).req = s.req := rfl
@[simp] theorem setResult_phase (s : State) (v : Option Result) : (s.setResult v).phase = s.phase := rfl
@[simp] theorem setResult_startAddress (s : State) (v : Option Result) : (s.setResult v).startAddress = s.startAddress := rfl
@[simp] theorem setResult_memory (s : State) (v : Option Result) : (s.setResult v).memory = s.memory := rfl
@[simp] theorem setResult_config (s : State) (v : Option Result) : (s.setResult v).config = s.config := rfl
@[simp] theorem setResult_stopRequest (s : State) (v : Option Result) : (s.setResult v).stopRequest = s.stopRequest := rfl
@[simp] theorem setResult_result (s : State) (v : Option Result) : (s.setResult v).result = v := rfl
@[simp] theorem setResult_reg (s : State) (v : Option Result) (j : Reg) : (s.setResult v).reg j = s.reg j := rfl
@[simp] theorem setResult_inBounds (s : State) (v : Option Result) (x : Word) : (s.setResult v).inBounds x = s.inBounds x := rfl
@[simp] theorem setResult_memRead (s : State) (v : Option Result) (x : Word) : (s.setResult v).memRead x = s.memRead x := rfl

/-! ### The register file -/

theorem setReg_reg (s : State) (i : Reg) (v : Word) (j : Reg) :
    (s.setReg i v).reg j = if j = i then v else s.reg j := by
  simp only [reg, setReg, Vector.getElem_set, Fin.val_inj, eq_comm]

@[simp] theorem setReg_reg_same (s : State) (i : Reg) (v : Word) : (s.setReg i v).reg i = v := by
  simp [setReg_reg]

theorem setReg_reg_other (s : State) (i : Reg) (v : Word) {j : Reg} (h : j ≠ i) :
    (s.setReg i v).reg j = s.reg j := by
  simp [setReg_reg, h]

/-- Two states with equal fields are equal; the registers are compared one by one. -/
theorem regs_ext {s t : State} (h : ∀ i, s.reg i = t.reg i) : s.regs = t.regs := by
  apply Vector.ext
  intro i hi
  exact h ⟨i, hi⟩

end Sys2Proof.Machine.State
end

