-- ==== Sys2Proof/Laws/Memory.lean ====
section
/-! SUPPORT. The laws of memory (20_memory.md R53, R54): a read after a write, and the canonical form every memory
operation keeps. -/

namespace Sys2Proof.Machine.Memory

theorem read_filter_ne (m : Memory) {a b : Nat} (h : b ≠ a) : (m.erase a).read b = m.read b := by
  induction m with
  | nil => rfl
  | cons c m ih =>
    unfold erase at ih ⊢
    by_cases hc : c.1 = a
    · have : c.1 ≠ b := fun e => h (e ▸ hc)
      simp [hc, read, ih, h.symm]
    · by_cases hb : c.1 = b <;> simp [hc, hb, read, ih, h]

theorem read_of_forall_ne {m : Memory} {a : Nat} (h : ∀ c ∈ m, c.1 ≠ a) : m.read a = 0#16 := by
  induction m with
  | nil => rfl
  | cons c m ih =>
    simp only [List.mem_cons, forall_eq_or_imp] at h
    simp [read, h.1, ih h.2]

theorem read_erase_same (m : Memory) (a : Nat) : (m.erase a).read a = 0#16 :=
  read_of_forall_ne fun c hc => by simpa [erase] using (List.mem_filter.mp hc).2

theorem read_insert (m : Memory) (a b : Nat) (v : Word) (h : ∀ c ∈ m, c.1 ≠ a) :
    (Memory.insert a v m).read b = if b = a then v else m.read b := by
  induction m with
  | nil => simp [Memory.insert, read, eq_comm]
  | cons c m ih =>
    simp only [List.mem_cons, forall_eq_or_imp] at h
    rw [Memory.insert]
    split
    · simp [read, eq_comm]
    · by_cases hcb : c.1 = b
      · have : b ≠ a := fun e => h.1 (hcb.trans e)
        simp [read, hcb, this]
      · simp [read, hcb, ih h.2]

/-- A read after a write (R53, R54). -/
theorem read_write (m : Memory) (a b : Nat) (v : Word) :
    (m.write a v).read b = if b = a then v else m.read b := by
  unfold write
  split
  · next hv =>
    by_cases h : b = a
    · subst h; simp [read_erase_same, hv]
    · simp [read_filter_ne m h, h]
  · rw [read_insert _ _ _ _ fun c hc => by simpa [erase] using (List.mem_filter.mp hc).2]
    by_cases h : b = a
    · simp [h]
    · simp [read_filter_ne m h, h]

theorem mem_insert {m : Memory} {a : Nat} {v : Word} {c : Cell} :
    c ∈ Memory.insert a v m ↔ c = (a, v) ∨ c ∈ m := by
  induction m with
  | nil => simp [Memory.insert]
  | cons d m ih =>
    rw [Memory.insert]
    split
    · simp
    · simp only [List.mem_cons, ih]; tauto

theorem mem_write {m : Memory} {a : Nat} {v : Word} {c : Cell} (h : c ∈ m.write a v) : c = (a, v) ∨ c ∈ m := by
  unfold write erase at h
  split at h
  · exact .inr (List.mem_filter.mp h).1
  · exact (mem_insert.mp h).imp_right fun h => (List.mem_filter.mp h).1

theorem pairwise_insert {m : Memory} {a : Nat} {v : Word} (hm : m.Pairwise fun c d => c.1 < d.1)
    (h : ∀ c ∈ m, c.1 ≠ a) : (Memory.insert a v m).Pairwise fun c d => c.1 < d.1 := by
  induction m with
  | nil => simp [Memory.insert]
  | cons d m ih =>
    simp only [List.mem_cons, forall_eq_or_imp] at h
    obtain ⟨hd, hm⟩ := List.pairwise_cons.mp hm
    rw [Memory.insert]
    split
    · next hlt =>
      refine List.pairwise_cons.mpr ⟨?_, List.pairwise_cons.mpr ⟨hd, hm⟩⟩
      intro c hc
      rcases List.mem_cons.mp hc with rfl | hc
      · exact hlt
      · exact hlt.trans (hd c hc)
    · next hge =>
      refine List.pairwise_cons.mpr ⟨?_, ih hm h.2⟩
      intro c hc
      rcases mem_insert.mp hc with rfl | hc
      · exact lt_of_le_of_ne (not_lt.mp hge) h.1
      · exact hd c hc

theorem wf_iff (m : Memory) : m.wf = true ↔ (m.Pairwise fun c d => c.1 < d.1) ∧ ∀ c ∈ m, c.2 ≠ 0#16 := by
  simp [wf, List.all_eq_true]

/-- Every write keeps the canonical form. -/
theorem wf_write {m : Memory} (h : m.wf = true) (a : Nat) (v : Word) : (m.write a v).wf = true := by
  rw [wf_iff] at h ⊢
  refine ⟨?_, ?_⟩
  · unfold write erase
    split
    · exact h.1.filter _
    · exact pairwise_insert (h.1.filter _) fun c hc => by simpa using (List.mem_filter.mp hc).2
  · intro c hc
    by_cases hv : v = 0#16
    · simp only [write, hv, if_true, erase] at hc
      exact h.2 c (List.mem_filter.mp hc).1
    · rcases mem_write hc with rfl | hc
      · exact hv
      · exact h.2 c hc

theorem wf_nil : Memory.wf [] = true := rfl

theorem within_iff (m : Memory) (size : Nat) : m.within size = true ↔ ∀ c ∈ m, c.1 < size := by
  simp [within, List.all_eq_true]

/-- A write below the bound keeps every cell below it. -/
theorem within_write {m : Memory} {size a : Nat} (h : m.within size = true) (ha : a < size) (v : Word) :
    (m.write a v).within size = true := by
  rw [within_iff] at h ⊢
  intro c hc
  rcases mem_write hc with rfl | hc
  · exact ha
  · exact h c hc

/-- LOAD's sequential writes keep the canonical form. -/
theorem wf_writeWords {m : Memory} (h : m.wf = true) (index : Nat) (ws : List Word) :
    (m.writeWords index ws).wf = true := by
  induction ws generalizing m index with
  | nil => exact h
  | cons w ws ih => exact ih (wf_write h index w) (index + 1)

/-- Two memories in the canonical form that read alike at every address are the same data. -/
theorem ext_of_read {m k : Memory} (hm : m.wf = true) (hk : k.wf = true) (h : ∀ a, m.read a = k.read a) : m = k := by
  rw [wf_iff] at hm hk
  induction m generalizing k with
  | nil =>
    cases k with
    | nil => rfl
    | cons c k =>
      have := h c.1
      simp only [read, if_true] at this
      exact absurd this.symm (hk.2 c (by simp))
  | cons c m ih =>
    cases k with
    | nil =>
      have := h c.1
      simp only [read, if_true] at this
      exact absurd this (hm.2 c (by simp))
    | cons d k =>
      obtain ⟨hc, hm'⟩ := List.pairwise_cons.mp hm.1
      obtain ⟨hd, hk'⟩ := List.pairwise_cons.mp hk.1
      have readc : Memory.read m c.1 = 0#16 := read_of_forall_ne fun x hx => (hc x hx).ne'
      have readd : Memory.read k d.1 = 0#16 := read_of_forall_ne fun x hx => (hd x hx).ne'
      have hcd : c.1 = d.1 := by
        rcases lt_trichotomy c.1 d.1 with lt | e | gt
        · have := h c.1
          simp only [read, if_true, if_neg lt.ne'] at this
          rw [read_of_forall_ne fun x hx => (lt.trans (hd x hx)).ne'] at this
          exact absurd this (hm.2 c (by simp))
        · exact e
        · have := h d.1
          simp only [read, if_true, if_neg gt.ne'] at this
          rw [read_of_forall_ne fun x hx => (gt.trans (hc x hx)).ne'] at this
          exact absurd this.symm (hk.2 d (by simp))
      have hv : c.2 = d.2 := by
        have := h c.1
        simpa [read, hcd] using this
      have : c = d := Prod.ext hcd hv
      subst this
      congr 1
      refine ih ⟨hm', fun x hx => hm.2 x (by simp [hx])⟩ ⟨hk', fun x hx => hk.2 x (by simp [hx])⟩ fun a => ?_
      by_cases ha : c.1 = a
      · rw [← ha, readc, readd]
      · have := h a
        simpa [read, ha] using this

end Sys2Proof.Machine.Memory
end

