-- ==== Sys2Proof/Laws/Ops.lean ====
section
/-! SUPPORT. What each shared operation can do, once: memory access, the load and store phases, FETCH, the boundary
between phases and the rest of a pass. -/

namespace Sys2Proof.Machine

/-! ## Memory access -/

theorem State.memRead_ok {s : State} {x w : Word} :
    s.memRead x = .ok w ↔ s.inBounds x = true ∧ w = s.memory.read x.toNat := by
  cases h : s.inBounds x <;> simp [State.memRead, h, eq_comm]

theorem State.memRead_error {s : State} {x : Word} {f : Fault} :
    s.memRead x = .error f ↔ s.inBounds x = false ∧ f = .memoryFault x := by
  cases h : s.inBounds x <;> simp [State.memRead, h, eq_comm]

theorem State.memWrite_ok {s t : State} {x v : Word} :
    s.memWrite x v = .ok t ↔ s.inBounds x = true ∧ t = s.setMemory (s.memory.write x.toNat v) := by
  cases h : s.inBounds x <;> simp [State.memWrite, h, eq_comm]

theorem State.memWrite_error {s : State} {x v : Word} {f : Fault} :
    s.memWrite x v = .error f ↔ s.inBounds x = false ∧ f = .memoryFault x := by
  cases h : s.inBounds x <;> simp [State.memWrite, h, eq_comm]

/-- A load in bounds (R150, R152). -/
theorem loadWord_inBounds {s : State} {ea : Word} (h : s.inBounds ea = true) :
    loadWord ea s =
      .goOn (((s.setMar ea).setMdr (s.memory.read ea.toNat)).setR (s.memory.read ea.toNat)) := by
  simp [loadWord, State.memRead, h]

/-- A load out of bounds: MAR alone is written (R213). -/
theorem loadWord_outOfBounds {s : State} {ea : Word} (h : s.inBounds ea = false) :
    loadWord ea s = .raise (.memoryFault ea) (s.setMar ea) := by
  simp [loadWord, State.memRead, h]

/-- A store in bounds (R156, R158). -/
theorem storeWord_inBounds {s : State} {ea v : Word} (h : s.inBounds ea = true) :
    storeWord ea v s = .goOn (((s.setMar ea).setMemory (s.memory.write ea.toNat v)).setMdr v) := by
  simp [storeWord, State.memWrite, h]

/-- A store out of bounds: MAR alone is written (R213). -/
theorem storeWord_outOfBounds {s : State} {ea v : Word} (h : s.inBounds ea = false) :
    storeWord ea v s = .raise (.memoryFault ea) (s.setMar ea) := by
  simp [storeWord, State.memWrite, h]

/-- FETCH in bounds (R101). -/
theorem fetchPhase_inBounds {s : State} (h : s.inBounds s.pc = true) :
    fetchPhase s = .goOn (s.fetched (s.memory.read s.pc.toNat)) := by
  simp [fetchPhase, State.memRead, h, State.fetched]

/-- FETCH out of bounds writes nothing (R212). -/
theorem fetchPhase_outOfBounds {s : State} (h : s.inBounds s.pc = false) :
    fetchPhase s = .raise (.memoryFault s.pc) s := by
  simp [fetchPhase, State.memRead, h]

/-! ## Boundaries -/

theorem boundary_clear {next : Phase} {rest : State → Answer} {s : State} (h : s.stopRequest = none) :
    boundary next rest s = rest (s.setPhase next) := by
  simp [boundary, h]

theorem boundary_stop {next : Phase} {rest : State → Answer} {s : State} (h : s.stopRequest = some 0) :
    boundary next rest s = .next (((s.setPhase next).setStopRequest none).setResult (some .stopped)) := by
  simp [boundary, h]

theorem boundary_wait {next : Phase} {rest : State → Answer} {s : State} {k : Nat}
    (h : s.stopRequest = some (k + 1)) :
    boundary next rest s = rest ((s.setPhase next).setStopRequest (some k)) := by
  simp [boundary, h]

/-! ## A property kept by every phase is kept by the rest of the pass -/

/-- A property of states that does not look at the engine's own bookkeeping. -/
structure Steady (P : State → Prop) : Prop where
  phase : ∀ s v, P s → P (s.setPhase v)
  stopRequest : ∀ s v, P s → P (s.setStopRequest v)
  result : ∀ s v, P s → P (s.setResult v)

/-- A phase's state, however the phase ends, has the property. -/
def PhaseEnd.All (P : State → Prop) : PhaseEnd → Prop
  | .goOn s => P s
  | .halt s => P s
  | .raise _ s => P s

theorem PhaseEnd.All.goOn {P : State → Prop} {e : PhaseEnd} {s : State} (h : e.All P) (he : e = .goOn s) : P s := by
  subst he
  exact h

/-- Every phase of an instruction keeps the property. -/
structure Micro.Keeps (m : Micro) (P : State → Prop) : Prop where
  decode : ∀ s, P s → (m.decode s).All P
  evalAddr : ∀ s, P s → (m.evalAddr s).All P
  fetchOp : ∀ s, P s → (m.fetchOp s).All P
  execute : ∀ s, P s → (m.execute s).All P
  store : ∀ s, P s → (m.store s).All P

/-- The answer is a next state with the property. -/
def Reaches (P : State → Prop) (answer : Answer) : Prop := ∃ t, answer = .next t ∧ P t

theorem endPass_reaches {P : State → Prop} (hP : Steady P) (result : Result) {s : State} (h : P s) :
    Reaches P (endPass result s) :=
  ⟨_, rfl, hP.result _ _ (hP.phase _ _ h)⟩

theorem boundary_reaches {P : State → Prop} (hP : Steady P) {next : Phase} {rest : State → Answer}
    (hr : ∀ s, P s → Reaches P (rest s)) {s : State} (h : P s) : Reaches P (boundary next rest s) := by
  unfold boundary
  split
  · exact hr _ (hP.phase _ _ h)
  · exact ⟨_, rfl, hP.result _ _ (hP.stopRequest _ _ (hP.phase _ _ h))⟩
  · exact hr _ (hP.stopRequest _ _ (hP.phase _ _ h))

theorem afterPhase_reaches {P : State → Prop} (hP : Steady P) {next : Phase} {rest : State → Answer}
    (hr : ∀ s, P s → Reaches P (rest s)) {e : PhaseEnd} (h : e.All P) : Reaches P (afterPhase next rest e) := by
  cases e with
  | goOn s => exact boundary_reaches hP hr h
  | halt s => exact endPass_reaches hP _ h
  | raise f s => exact endPass_reaches hP _ h

theorem afterStore_reaches {P : State → Prop} (hP : Steady P) {e : PhaseEnd} (h : e.All P) :
    Reaches P (afterStore e) := by
  cases e <;> exact endPass_reaches hP _ h

/-- What every phase keeps, the rest of the pass keeps, from whatever phase it starts. -/
theorem runPass_reaches {P : State → Prop} (hP : Steady P) {m : Micro} (hm : m.Keeps P) {s : State} (h : P s) :
    Reaches P (runPass m s) := by
  have store : ∀ s, P s → Reaches P (runStore m s) := fun s h => afterStore_reaches hP (hm.store s h)
  have execute : ∀ s, P s → Reaches P (runExecute m s) := fun s h => afterPhase_reaches hP store (hm.execute s h)
  have fetchOp : ∀ s, P s → Reaches P (runFetchOp m s) := fun s h => afterPhase_reaches hP execute (hm.fetchOp s h)
  have evalAddr : ∀ s, P s → Reaches P (runEvalAddr m s) := fun s h => afterPhase_reaches hP fetchOp (hm.evalAddr s h)
  have decode : ∀ s, P s → Reaches P (runDecode m s) := fun s h => afterPhase_reaches hP evalAddr (hm.decode s h)
  unfold runPass
  split
  · exact decode s h
  · exact decode s h
  · exact evalAddr s h
  · exact fetchOp s h
  · exact execute s h
  · exact store s h

theorem loadWord_all {P : State → Prop} {ea : Word} {s : State} (hmar : P (s.setMar ea))
    (hload : ∀ v, P (((s.setMar ea).setMdr v).setR v)) : (loadWord ea s).All P := by
  cases h : s.inBounds ea with
  | true => rw [loadWord_inBounds h]; exact hload _
  | false => rw [loadWord_outOfBounds h]; exact hmar

theorem storeWord_all {P : State → Prop} {ea v : Word} {s : State} (hmar : P (s.setMar ea))
    (hstore : s.inBounds ea = true → P (((s.setMar ea).setMemory (s.memory.write ea.toNat v)).setMdr v)) :
    (storeWord ea v s).All P := by
  cases h : s.inBounds ea with
  | true => rw [storeWord_inBounds h]; exact hstore h
  | false => rw [storeWord_outOfBounds h]; exact hmar

end Sys2Proof.Machine
end

