-- ==== Sys2Proof/Laws/Exec.lean ====
section
/-! SUPPORT. What `exec`, a cycle and a step can do, once: every meaning is the rest of a pass over the phases of its
instruction, so what every phase keeps, `exec` keeps. -/

namespace Sys2Proof.Machine

/-- The phases of each instruction. -/
def microOf : Instr → Micro
  | .br n z p off => microBr n z p off
  | .addReg dr sr1 sr2 => microAddReg dr sr1 sr2
  | .addImm dr sr1 imm => microAddImm dr sr1 imm
  | .ld dr off => microLd dr off
  | .st sr off => microSt sr off
  | .jsrr base => microJsrr base
  | .jsr off => microJsr off
  | .andReg dr sr1 sr2 => microAndReg dr sr1 sr2
  | .andImm dr sr1 imm => microAndImm dr sr1 imm
  | .ldr dr base off => microLdr dr base off
  | .str sr base off => microStr sr base off
  | .rtiIllegal => microIllegal
  | .notReg dr sr1 => microNotReg dr sr1
  | .ldiIllegal => microIllegal
  | .stiIllegal => microIllegal
  | .jmp base => microJmp base
  | .reservedIllegal => microIllegal
  | .lea dr off => microLea dr off
  | .halt => microHalt

theorem exec_eq_runPass (i : Instr) (s : State) : exec i s = runPass (microOf i) s := by
  cases i <;> rfl

/-- What every phase of an instruction keeps, its meaning keeps, and it answers a next state. -/
theorem exec_reaches {P : State → Prop} (hP : Steady P) {i : Instr} (hm : (microOf i).Keeps P) {s : State} (h : P s) :
    Reaches P (exec i s) := by
  rw [exec_eq_runPass]
  exact runPass_reaches hP hm h

/-- The same, about a given next state. -/
theorem exec_keeps {P : State → Prop} (hP : Steady P) {i : Instr} (hm : (microOf i).Keeps P) {s t : State} (h : P s)
    (e : exec i s = .next t) : P t := by
  obtain ⟨u, hu, hp⟩ := exec_reaches hP hm h
  rw [e] at hu
  cases hu
  exact hp

/-! ## The rest of a pass with no stop request -/

theorem afterPhase_goOn_clear {next : Phase} {rest : State → Answer} {s : State} (h : s.stopRequest = none) :
    afterPhase next rest (.goOn s) = rest (s.setPhase next) :=
  boundary_clear h

@[simp] theorem afterPhase_raise (next : Phase) (rest : State → Answer) (f : Fault) (s : State) :
    afterPhase next rest (.raise f s) = .next (s.ended (.faulted f)) := rfl

@[simp] theorem afterPhase_halt (next : Phase) (rest : State → Answer) (s : State) :
    afterPhase next rest (.halt s) = .next (s.ended .halted) := rfl

@[simp] theorem afterStore_goOn (s : State) : afterStore (.goOn s) = .next (s.ended .stepped) := rfl

@[simp] theorem afterStore_raise (f : Fault) (s : State) :
    afterStore (.raise f s) = .next (s.ended (.faulted f)) := rfl

theorem runPass_ready {m : Micro} {s : State} (h : s.ready) : runPass m s = runDecode m s := by
  simp [runPass, h.1]

/-- BR's STORE as one write of PC. -/
theorem commitBranch_eq (s : State) :
    commitBranch s = .goOn (s.setPc (if s.branchTaken then s.r else s.pc)) := by
  unfold commitBranch
  split <;> rfl

/-- No phase of any instruction writes the stop request. -/
theorem microOf_keeps_clear (i : Instr) : (microOf i).Keeps fun s => s.stopRequest = none := by
  cases i <;> constructor <;> intro s hs <;>
    first
    | exact hs
    | exact loadWord_all hs fun _ => hs
    | exact storeWord_all hs fun _ => hs
    | (show (commitBranch s).All _; rw [commitBranch_eq]; exact hs)

/-- A pass from DECODE with no stop request whose phases all go on: it completes (R111). -/
theorem runPass_completes {m : Micro} {s d e f x u : State} (h : s.ready)
    (hk : m.Keeps fun s => s.stopRequest = none)
    (hd : m.decode s = .goOn d) (he : m.evalAddr (d.setPhase .evalAddr) = .goOn e)
    (hf : m.fetchOp (e.setPhase .fetchOp) = .goOn f) (hx : m.execute (f.setPhase .execute) = .goOn x)
    (hu : m.store (x.setPhase .store) = .goOn u) : runPass m s = .next (u.ended .stepped) := by
  have cd : d.stopRequest = none := (hk.decode s h.2).goOn hd
  have ce : e.stopRequest = none := (hk.evalAddr (d.setPhase .evalAddr) cd).goOn he
  have cf : f.stopRequest = none := (hk.fetchOp (e.setPhase .fetchOp) ce).goOn hf
  have cx : x.stopRequest = none := (hk.execute (f.setPhase .execute) cf).goOn hx
  rw [runPass_ready h, runDecode, hd, afterPhase_goOn_clear cd, runEvalAddr, he, afterPhase_goOn_clear ce,
    runFetchOp, hf, afterPhase_goOn_clear cf, runExecute, hx, afterPhase_goOn_clear cx, runStore, hu,
    afterStore_goOn]

/-- A pass from DECODE with no stop request that a fault at EXECUTE ends (R109). -/
theorem runPass_raisesAtExecute {m : Micro} {s d e f x : State} {fault : Fault} (h : s.ready)
    (hk : m.Keeps fun s => s.stopRequest = none)
    (hd : m.decode s = .goOn d) (he : m.evalAddr (d.setPhase .evalAddr) = .goOn e)
    (hf : m.fetchOp (e.setPhase .fetchOp) = .goOn f) (hx : m.execute (f.setPhase .execute) = .raise fault x) :
    runPass m s = .next (x.ended (.faulted fault)) := by
  have cd : d.stopRequest = none := (hk.decode s h.2).goOn hd
  have ce : e.stopRequest = none := (hk.evalAddr (d.setPhase .evalAddr) cd).goOn he
  have cf : f.stopRequest = none := (hk.fetchOp (e.setPhase .fetchOp) ce).goOn hf
  rw [runPass_ready h, runDecode, hd, afterPhase_goOn_clear cd, runEvalAddr, he, afterPhase_goOn_clear ce,
    runFetchOp, hf, afterPhase_goOn_clear cf, runExecute, hx, afterPhase_raise]

/-- A pass from DECODE with no stop request that a fault at STORE ends (R109). -/
theorem runPass_raisesAtStore {m : Micro} {s d e f x u : State} {fault : Fault} (h : s.ready)
    (hk : m.Keeps fun s => s.stopRequest = none)
    (hd : m.decode s = .goOn d) (he : m.evalAddr (d.setPhase .evalAddr) = .goOn e)
    (hf : m.fetchOp (e.setPhase .fetchOp) = .goOn f) (hx : m.execute (f.setPhase .execute) = .goOn x)
    (hu : m.store (x.setPhase .store) = .raise fault u) : runPass m s = .next (u.ended (.faulted fault)) := by
  have cd : d.stopRequest = none := (hk.decode s h.2).goOn hd
  have ce : e.stopRequest = none := (hk.evalAddr (d.setPhase .evalAddr) cd).goOn he
  have cf : f.stopRequest = none := (hk.fetchOp (e.setPhase .fetchOp) ce).goOn hf
  have cx : x.stopRequest = none := (hk.execute (f.setPhase .execute) cf).goOn hx
  rw [runPass_ready h, runDecode, hd, afterPhase_goOn_clear cd, runEvalAddr, he, afterPhase_goOn_clear ce,
    runFetchOp, hf, afterPhase_goOn_clear cf, runExecute, hx, afterPhase_goOn_clear cx, runStore, hu,
    afterStore_raise]

/-! ## A cycle and a step -/

theorem cycle_fetch {s : State} (h : s.phase = .fetch) :
    cycle s = afterPhase .decode execIr (fetchPhase s) := by
  simp [cycle, h]

theorem cycle_resumed {s : State} (h : s.phase ≠ .fetch) : cycle s = execIr s := by
  unfold cycle
  split <;> first | rfl | contradiction

@[simp] theorem returnToHost_next (s : State) : returnToHost (.next s) = .next (s.setStopRequest none) := rfl

/-- What FETCH and every phase of every instruction keep, a cycle keeps. -/
theorem cycle_reaches {P : State → Prop} (hP : Steady P) (hf : ∀ s, P s → (fetchPhase s).All P)
    (hm : ∀ i, (microOf i).Keeps P) {s : State} (h : P s) : Reaches P (cycle s) := by
  have hx : ∀ s, P s → Reaches P (execIr s) := fun s h => exec_reaches hP (hm _) h
  by_cases hs : s.phase = .fetch
  · rw [cycle_fetch hs]
    exact afterPhase_reaches hP hx (hf s h)
  · rw [cycle_resumed hs]
    exact hx s h

/-- What FETCH and every phase of every instruction keep, a step keeps, and it answers a next state. -/
theorem step_reaches {P : State → Prop} (hP : Steady P) (hf : ∀ s, P s → (fetchPhase s).All P)
    (hm : ∀ i, (microOf i).Keeps P) {s : State} (h : P s) : Reaches P (step s) := by
  obtain ⟨t, ht, hp⟩ := cycle_reaches hP hf hm h
  exact ⟨_, by rw [step, ht]; rfl, hP.stopRequest _ _ hp⟩

end Sys2Proof.Machine
end

