-- ==== Sys2Proof/Laws/PerInstr.lean ====
section
/-! SUPPORT. A statement about every instruction as syntax, one lemma per constructor: the word `encode` gives selects
the instruction's own row of the opcode table (30_encoding.md R93). -/

namespace Sys2Proof.Laws.EncodeRow

/-- The encoding of an instruction lies in its row: its fixed bits are the row's. -/
def Statement (i : Instr) : Prop := rowMatches (rowOf i) (encode i) = true

theorem br (n z p : Bool) (off : Word) : Statement (.br n z p off) := by
  simp only [Statement, rowMatches, rowOf, encode, beq_iff_eq, Opcode.toBits, place]
  ext i hi
  interval_cases i <;> simp

theorem addReg (dr sr1 sr2 : Reg) : Statement (.addReg dr sr1 sr2) := by
  simp only [Statement, rowMatches, rowOf, encode, beq_iff_eq, Opcode.toBits, place]
  ext i hi
  interval_cases i <;> simp

theorem addImm (dr sr1 : Reg) (imm : Word) : Statement (.addImm dr sr1 imm) := by
  simp only [Statement, rowMatches, rowOf, encode, beq_iff_eq, Opcode.toBits, place]
  ext i hi
  interval_cases i <;> simp

theorem ld (dr : Reg) (off : Word) : Statement (.ld dr off) := by
  simp only [Statement, rowMatches, rowOf, encode, beq_iff_eq, Opcode.toBits, place]
  ext i hi
  interval_cases i <;> simp

theorem st (sr : Reg) (off : Word) : Statement (.st sr off) := by
  simp only [Statement, rowMatches, rowOf, encode, beq_iff_eq, Opcode.toBits, place]
  ext i hi
  interval_cases i <;> simp

theorem jsrr (base : Reg) : Statement (.jsrr base) := by
  simp only [Statement, rowMatches, rowOf, encode, beq_iff_eq, Opcode.toBits, place]
  ext i hi
  interval_cases i <;> simp

theorem jsr (off : Word) : Statement (.jsr off) := by
  simp only [Statement, rowMatches, rowOf, encode, beq_iff_eq, Opcode.toBits, place]
  ext i hi
  interval_cases i <;> simp

theorem andReg (dr sr1 sr2 : Reg) : Statement (.andReg dr sr1 sr2) := by
  simp only [Statement, rowMatches, rowOf, encode, beq_iff_eq, Opcode.toBits, place]
  ext i hi
  interval_cases i <;> simp

theorem andImm (dr sr1 : Reg) (imm : Word) : Statement (.andImm dr sr1 imm) := by
  simp only [Statement, rowMatches, rowOf, encode, beq_iff_eq, Opcode.toBits, place]
  ext i hi
  interval_cases i <;> simp

theorem ldr (dr base : Reg) (off : Word) : Statement (.ldr dr base off) := by
  simp only [Statement, rowMatches, rowOf, encode, beq_iff_eq, Opcode.toBits, place]
  ext i hi
  interval_cases i <;> simp

theorem str (sr base : Reg) (off : Word) : Statement (.str sr base off) := by
  simp only [Statement, rowMatches, rowOf, encode, beq_iff_eq, Opcode.toBits, place]
  ext i hi
  interval_cases i <;> simp

theorem rtiIllegal : Statement .rtiIllegal := by
  show rowMatches (rowOf .rtiIllegal) (encode .rtiIllegal) = true
  decide

theorem notReg (dr sr1 : Reg) : Statement (.notReg dr sr1) := by
  simp only [Statement, rowMatches, rowOf, encode, beq_iff_eq, Opcode.toBits, place]
  ext i hi
  interval_cases i <;> simp

theorem ldiIllegal : Statement .ldiIllegal := by
  show rowMatches (rowOf .ldiIllegal) (encode .ldiIllegal) = true
  decide

theorem stiIllegal : Statement .stiIllegal := by
  show rowMatches (rowOf .stiIllegal) (encode .stiIllegal) = true
  decide

theorem jmp (base : Reg) : Statement (.jmp base) := by
  simp only [Statement, rowMatches, rowOf, encode, beq_iff_eq, Opcode.toBits, place]
  ext i hi
  interval_cases i <;> simp

theorem reservedIllegal : Statement .reservedIllegal := by
  show rowMatches (rowOf .reservedIllegal) (encode .reservedIllegal) = true
  decide

theorem lea (dr : Reg) (off : Word) : Statement (.lea dr off) := by
  simp only [Statement, rowMatches, rowOf, encode, beq_iff_eq, Opcode.toBits, place]
  ext i hi
  interval_cases i <;> simp

theorem halt : Statement .halt := by
  show rowMatches (rowOf .halt) (encode .halt) = true
  decide

end Sys2Proof.Laws.EncodeRow
end

