-- ==== Sys2Proof/Tests/Slice0.lean ====
section
/-! SUPPORT. Tests: well-formedness, decoding and encoding of words written out from the spec's encodings, and one step
per instruction or fault with the values 95_test_vectors.md gives; then a witness for the hypotheses of every
obligation that has some. A test's name or comment says which vector it is. -/

namespace Sys2Proof.Tests

open Sys2Proof Sys2Proof.Machine

/-! ## Helpers -/

/-- A machine of `size` words right after creation, with cells (by rising address, none zero) and a PC. -/
def machine (size : Nat) (pc : Word) (cells : List Cell) : State :=
  ((State.create ⟨size, 0x0000#16⟩).setMemory cells).setPc pc

/-- The same machine right after FETCH of `w` from `pc`, at DECODE, with no stop request. -/
def atDecode (size : Nat) (pc w : Word) : State := ((machine size pc []).fetched w).setPhase .decode

/-- What `f` sees of the state one step leaves. -/
def afterStep {α : Type} (f : State → α) (s : State) : Option α :=
  match step s with
  | .next t => some (f t)
  | .fault _ => none
  | .refused _ => none

/-- The condition flags N, Z, P as digits. -/
def bits (n z p : Nat) : CondFlags := ⟨n == 1, z == 1, p == 1⟩

/-! ## Well-formedness: an ill-formed term for each check -/

theorem test_wellFormed_imm5 :
    (Instr.addImm 0 0 16#16).wellFormed = false ∧ (Instr.addImm 0 0 0xFFEF#16).wellFormed = false ∧
      (Instr.andImm 0 0 0x8000#16).wellFormed = false ∧ (Instr.addImm 0 0 0xFFF0#16).wellFormed = true ∧
      (Instr.andImm 0 0 15#16).wellFormed = true := by decide

theorem test_wellFormed_offset6 :
    (Instr.ldr 0 0 32#16).wellFormed = false ∧ (Instr.str 0 0 0xFFDF#16).wellFormed = false ∧
      (Instr.ldr 0 0 0xFFE0#16).wellFormed = true ∧ (Instr.str 0 0 31#16).wellFormed = true := by decide

theorem test_wellFormed_pcOffset9 :
    (Instr.br true true true 256#16).wellFormed = false ∧ (Instr.ld 0 0xFEFF#16).wellFormed = false ∧
      (Instr.st 0 256#16).wellFormed = false ∧ (Instr.lea 0 0x7FFF#16).wellFormed = false ∧
      (Instr.lea 0 0xFF00#16).wellFormed = true := by decide

theorem test_wellFormed_pcOffset11 :
    (Instr.jsr 1024#16).wellFormed = false ∧ (Instr.jsr 0xFBFF#16).wellFormed = false ∧
      (Instr.jsr 0xFC00#16).wellFormed = true := by decide

/-! ## Decoding words written out from 30_encoding.md R81 to R89 -/

theorem test_decode_br :
    decode 0b0000010000000010#16 = .br false true false 2#16 ∧ decode 0x0A02#16 = .br true false true 2#16 ∧
      decode 0x05FD#16 = .br false true false 0xFFFD#16 ∧ decode 0x0002#16 = .br false false false 2#16 := by decide

theorem test_decode_add :
    decode 0b0001001010000011#16 = .addReg 1 2 3 ∧ decode 0x129B#16 = .addReg 1 2 3 ∧
      decode 0b0001000000111111#16 = .addImm 0 0 0xFFFF#16 ∧ decode 0x1025#16 = .addImm 0 0 5#16 := by decide

theorem test_decode_and :
    decode 0b0101011001000010#16 = .andReg 3 1 2 ∧ decode 0b0101001001100000#16 = .andImm 1 1 0#16 ∧
      decode 0x5030#16 = .andImm 0 0 0xFFF0#16 := by decide

theorem test_decode_not :
    decode 0b1001010010111111#16 = .notReg 2 2 ∧ decode 0x9280#16 = .notReg 1 2 := by decide

theorem test_decode_loads :
    decode 0b0010001000000101#16 = .ld 1 5#16 ∧ decode 0b0110010001000000#16 = .ldr 2 1 0#16 ∧
      decode 0x6260#16 = .ldr 1 1 0xFFE0#16 ∧ decode 0b1110010111111111#16 = .lea 2 0xFFFF#16 := by decide

theorem test_decode_stores :
    decode 0b0011011000000100#16 = .st 3 4#16 ∧ decode 0b0111010001000011#16 = .str 2 1 3#16 ∧
      decode 0x703F#16 = .str 0 0 0xFFFF#16 := by decide

theorem test_decode_jumps :
    decode 0b1100000011000000#16 = .jmp 3 ∧ decode 0xCEFF#16 = .jmp 3 ∧ decode 0xC1C0#16 = .jmp 7 ∧
      decode 0b0100100000000011#16 = .jsr 3#16 ∧ decode 0x4C00#16 = .jsr 0xFC00#16 ∧
      decode 0b0100000010000000#16 = .jsrr 2 ∧ decode 0x41C0#16 = .jsrr 7 := by decide

theorem test_decode_system :
    decode 0b1111000000100101#16 = .halt ∧ decode 0xF000#16 = .halt ∧ decode 0xF021#16 = .halt ∧
      decode 0x8000#16 = .rtiIllegal ∧ decode 0xA005#16 = .ldiIllegal ∧ decode 0xB1FF#16 = .stiIllegal ∧
      decode 0xD123#16 = .reservedIllegal := by decide

theorem test_encode :
    encode (.addReg 1 2 3) = 0x1283#16 ∧ encode (.addImm 0 0 0xFFFF#16) = 0x103F#16 ∧
      encode (.notReg 2 2) = 0x94BF#16 ∧ encode (.ld 0 0xFFFF#16) = 0x21FF#16 ∧
      encode (.str 2 1 3#16) = 0x7443#16 ∧ encode (.br false true false 0xFFFD#16) = 0x05FD#16 ∧
      encode (.jsr 0xFC00#16) = 0x4C00#16 ∧ encode (.jsrr 7) = 0x41C0#16 ∧ encode (.jmp 7) = 0xC1C0#16 ∧
      encode .halt = 0xF025#16 := by decide

theorem test_decodeTableWord :
    decodeTableWord 16 0x1283 = some (.addReg 1 2 3) ∧ decodeTableWord 16 0x10000 = none ∧
      decodeTableWord 8 0x12 = none := by decide

/-- V-SRC-2 and V-SRC-3, and V-SX-1, 2. -/
theorem test_sext :
    sextLow 6 0x20#16 = 0xFFE0#16 ∧ sextLow 6 0x1F#16 = 0x001F#16 ∧ sextLow 9 0x100#16 = 0xFF00#16 ∧
      sextLow 9 0x0FF#16 = 0x00FF#16 ∧ sextLow 11 0x400#16 = 0xFC00#16 ∧ sextLow 11 0x3FF#16 = 0x03FF#16 ∧
      sextLow 5 0x10#16 = 0xFFF0#16 ∧ sextLow 5 0x0F#16 = 0x000F#16 := by decide

/-! ## ALU instructions -/

/-- V-ALU-2: a sum past 0x7FFF wraps, with no flag and no fault. -/
theorem test_addReg_wraps :
    afterStep (fun t => ((t.reg 1, t.a, t.b, t.r), (t.pc, t.flags, t.result)))
      (((machine 16 0#16 [(0, 0x1283#16)]).setReg 2 0x7FFF#16).setReg 3 1#16) =
      some ((0x8000#16, 0x7FFF#16, 1#16, 0x8000#16), (1#16, bits 0 0 0, some .stepped)) := by decide

/-- V-ALU-5: every operand the same register. -/
theorem test_addReg_same_register :
    afterStep (fun t => (t.reg 1, t.a, t.b)) ((machine 16 0#16 [(0, 0x1241#16)]).setReg 1 0x4001#16) =
      some (0x8002#16, 0x4001#16, 0x4001#16) := by decide

/-- V-ALU-8: the most negative immediate. -/
theorem test_addImm_negative :
    afterStep (fun t => (t.reg 0, t.sext)) ((machine 16 0#16 [(0, 0x1030#16)]).setReg 0 0x10#16) =
      some (0#16, 0xFFF0#16) := by decide

/-- V-SRC-5, the STEP. -/
theorem test_addImm_scenarioA :
    afterStep (fun t => ((t.reg 0, t.pc, t.ir, t.phase), (t.sext, t.a, t.b, t.r)))
      (machine 16 0#16 [(0, 0x1025#16), (1, 0xF025#16)]) =
      some ((5#16, 1#16, 0x1025#16, .fetch), (5#16, 0#16, 5#16, 5#16)) := by decide

/-- V-ALU-10. -/
theorem test_andReg :
    afterStep (fun t => t.reg 3)
      (((machine 16 0#16 [(0, 0x5642#16)]).setReg 1 0xF0F0#16).setReg 2 0x0FF0#16) = some 0x00F0#16 := by decide

/-- V-ALU-14. -/
theorem test_andImm :
    afterStep (fun t => (t.reg 0, t.sext)) ((machine 16 0#16 [(0, 0x5030#16)]).setReg 0 0x1234#16) =
      some (0x1230#16, 0xFFF0#16) := by decide

/-- V-ALU-15: B keeps its value. -/
theorem test_notReg :
    afterStep (fun t => (t.reg 2, t.a, t.r, t.b))
      (((machine 16 0#16 [(0, 0x94BF#16)]).setReg 2 0x5A5A#16).setB 0x7777#16) =
      some (0xA5A5#16, 0x5A5A#16, 0xA5A5#16, 0x7777#16) := by decide

/-! ## Loads and stores -/

/-- V-LS-1 and V-MEM-3: startAddress does not remap. -/
theorem test_ld :
    afterStep (fun t => (t.reg 1, t.sext, t.a, t.mar, t.mdr, t.r, t.pc))
      ((machine 256 0#16 [(0, 0x2205#16), (5, 7#16), (0x45, 0x9999#16)]).setStartAddress 0x40#16) =
      some (7#16, 5#16, 5#16, 5#16, 7#16, 7#16, 1#16) := by decide

/-- V-LS-4: the first address beyond memory going down from 0. -/
theorem test_ld_fault :
    afterStep (fun t => ((t.result, t.mar, t.mdr, t.r), (t.reg 0, t.sext, t.pc, t.phase)))
      ((machine 16 0#16 [(0, 0x21FF#16)]).setReg 0 0x1111#16) =
      some ((some (.faulted (.memoryFault 0xFFFF#16)), 0xFFFF#16, 0#16, 0#16), (0x1111#16, 0xFFFF#16, 1#16, .fetch)) := by
  decide

/-- V-LS-6: the old base is used. -/
theorem test_ldr_base_is_destination :
    afterStep (fun t => (t.reg 1, t.b, t.mar))
      ((machine 256 0#16 [(0, 0x6260#16), (0x10, 0x00AA#16)]).setReg 1 0x30#16) =
      some (0x00AA#16, 0xFFE0#16, 0x10#16) := by decide

/-- V-LS-8: the address MEM_SIZE itself. -/
theorem test_ldr_fault :
    afterStep (fun t => (t.result, t.mar, t.mdr)) ((machine 8 0#16 [(0, 0x6043#16)]).setReg 1 5#16) =
      some (some (.faulted (.memoryFault 8#16)), 8#16, 0#16) := by decide

/-- V-SRC-6, and V-LS-10: LEA checks no bound. -/
theorem test_lea :
    afterStep (fun t => (t.reg 2, t.sext, t.a, t.r, t.mar)) (machine 16 5#16 [(5, 0xE5FF#16)]) =
        some (4#16, 0xFFFF#16, 0xFFFF#16, 4#16, 0#16) ∧
      afterStep (fun t => (t.reg 0, t.result)) (machine 16 0#16 [(0, 0xE0FF#16)]) =
        some (0xFF#16, some .stepped) := by decide

/-- V-LS-11. -/
theorem test_st :
    afterStep (fun t => (t.memory.read 7, t.a, t.r, t.mar, t.mdr, t.pc))
      ((machine 16 3#16 [(3, 0x3604#16)]).setReg 3 4#16) = some (4#16, 4#16, 4#16, 7#16, 4#16, 4#16) := by decide

/-- V-LS-12: MDR and memory keep their value. -/
theorem test_st_fault :
    afterStep (fun t => ((t.result, t.memory), (t.mar, t.mdr, t.r))) ((machine 16 0#16 [(0, 0x30FF#16)]).setReg 0 0x5555#16) =
      some ((some (.faulted (.memoryFault 0xFF#16)), [(0, 0x30FF#16)]), (0xFF#16, 0#16, 0x5555#16)) := by decide

/-- V-LS-14. -/
theorem test_str :
    afterStep (fun t => (t.memory.read 9, t.a, t.b, t.r, t.mar, t.mdr))
      (((machine 16 0#16 [(0, 0x7443#16)]).setReg 1 6#16).setReg 2 0x1234#16) =
      some (0x1234#16, 6#16, 3#16, 9#16, 9#16, 0x1234#16) := by decide

/-- V-LS-16. -/
theorem test_str_fault :
    afterStep (fun t => (t.result, t.mar, t.r, t.mdr)) (machine 16 0#16 [(0, 0x703F#16)]) =
      some (some (.faulted (.memoryFault 0xFFFF#16)), 0xFFFF#16, 0xFFFF#16, 0#16) := by decide

/-- Storing 0x0000 unlists the cell; another store lists it in its place. -/
theorem test_memory_canonical :
    Memory.write [(1, 5#16), (3, 7#16)] 3 0#16 = [(1, 5#16)] ∧
      Memory.write [(1, 5#16), (3, 7#16)] 2 9#16 = [(1, 5#16), (2, 9#16), (3, 7#16)] := by decide

/-! ## Control transfers -/

/-- V-SRC-7: BRz taken and BRn not taken, under N Z P = 0 1 0. -/
theorem test_br :
    afterStep (fun t => (t.pc, t.req, t.a, t.b, t.r, t.flags))
        ((machine 16 2#16 [(2, 0x0402#16)]).setFlags (bits 0 1 0)) =
        some (4#16, bits 0 1 0, 2#16, 2#16, 4#16, bits 0 1 0) ∧
      afterStep (fun t => (t.pc, t.req, t.a, t.b, t.r)) ((machine 16 0#16 [(0, 0x0802#16)]).setFlags (bits 0 1 0)) =
        some (1#16, bits 1 0 0, 0#16, 2#16, 2#16) := by decide

/-- V-CF-5: no bit requested, every flag set. -/
theorem test_br_none_requested :
    afterStep (fun t => (t.pc, t.req, t.r)) ((machine 16 0#16 [(0, 0x0002#16)]).setFlags (bits 1 1 1)) =
      some (1#16, bits 0 0 0, 2#16) := by decide

/-- V-CF-11. -/
theorem test_jmp :
    afterStep (fun t => (t.pc, t.a, t.r)) ((machine 16 0#16 [(0, 0xC0C0#16)]).setReg 3 0x10#16) =
      some (0x10#16, 0x10#16, 0x10#16) := by decide

/-- V-CF-14, and V-CF-16: the target wraps. -/
theorem test_jsr :
    afterStep (fun t => (t.reg 7, t.pc, t.sext, t.a, t.b, t.r)) ((machine 16 2#16 [(2, 0x4803#16)]).setR 9#16) =
        some (3#16, 5#16, 3#16, 2#16, 3#16, 9#16) ∧
      afterStep (fun t => (t.reg 7, t.pc)) (machine 32 0x10#16 [(0x10, 0x4C00#16)]) =
        some (0x11#16, 0xFC10#16) := by decide

/-- V-CF-17. -/
theorem test_jsrr :
    afterStep (fun t => (t.reg 7, t.pc, t.b, t.a, t.sext))
      ((((machine 16 0#16 [(0, 0x4080#16)]).setReg 2 0x20#16).setA 8#16).setSext 9#16) =
      some (1#16, 0x20#16, 0x20#16, 8#16, 9#16) := by decide

/-- V-CF-18: the base is read after the link write. -/
theorem test_jsrr_link :
    afterStep (fun t => (t.reg 7, t.pc)) ((machine 16 4#16 [(4, 0x41C0#16)]).setReg 7 0x100#16) =
      some (5#16, 5#16) := by decide

/-! ## HALT and the illegal opcodes -/

/-- V-SYS-2: `halted`, not `stepped`. -/
theorem test_halt :
    afterStep (fun t => (t.result, t.pc, t.ir, t.phase)) (machine 16 1#16 [(1, 0xF025#16)]) =
      some (some .halted, 2#16, 0xF025#16, .fetch) := by decide

/-- V-SYS-7, V-SYS-9. -/
theorem test_illegal_rti_reserved :
    afterStep (fun t => (t.result, t.pc, t.phase)) (machine 16 0#16 [(0, 0x8000#16)]) =
        some (some (.faulted (.illegalOpcode 0x8000#16)), 1#16, .fetch) ∧
      afterStep (fun t => t.result) (machine 16 0#16 [(0, 0xD123#16)]) =
        some (some (.faulted (.illegalOpcode 0xD123#16))) := by decide

/-- V-SYS-6, V-SYS-8: memory is unchanged. -/
theorem test_illegal_ldi_sti :
    afterStep (fun t => t.result) (machine 16 0#16 [(0, 0xA005#16)]) =
        some (some (.faulted (.illegalOpcode 0xA005#16))) ∧
      afterStep (fun t => (t.result, t.memory)) (machine 16 0#16 [(0, 0xB1FF#16)]) =
        some (some (.faulted (.illegalOpcode 0xB1FF#16)), [(0, 0xB1FF#16)]) := by decide

/-! ## FETCH, stops and the host's commands -/

/-- V-CY-1: PC = MEM_SIZE faults, nothing else changes; 15 = MEM_SIZE − 1 does not fault. -/
theorem test_fetch_bound :
    afterStep id (machine 16 0x10#16 []) =
        some ((machine 16 0x10#16 []).setResult (some (.faulted (.memoryFault 0x10#16)))) ∧
      afterStep (fun t => (t.result, t.pc)) (machine 16 0x0F#16 []) = some (some .stepped, 0x10#16) := by decide

/-- V-CY-3, its first instruction: PC wraps. -/
theorem test_fetch_wraps :
    afterStep (fun t => (t.reg 0, t.pc)) (machine 65536 0xFFFF#16 [(0xFFFF, 0x1021#16)]) = some (1#16, 0#16) := by
  decide

/-- V-CY-4: a stop between EVAL_ADDR and FETCH_OP. -/
theorem test_stop :
    afterStep (fun t => ((t.result, t.phase, t.pc), (t.ir, t.sext, t.reg 0, t.b)))
      ((machine 16 0#16 [(0, 0x1025#16)]).setStopRequest (some 2)) =
      some ((some .stopped, .fetchOp, 1#16), (0x1025#16, 5#16, 0#16, 0#16)) := by decide

/-- V-CY-5: the resumed pass reads what the host wrote meanwhile. -/
theorem test_resume :
    afterStep (fun t => (t.result, t.reg 0, t.a, t.b, t.phase, t.pc))
      (((((machine 16 1#16 [(0, 0x1025#16)]).setIr 0x1025#16).setSext 5#16).setPhase .fetchOp).setReg 0 10#16) =
      some (some .stepped, 15#16, 10#16, 5#16, .fetch, 1#16) := by decide

/-- V-CY-6: JSR stopped before STORE has already written R7 and PC. -/
theorem test_stop_before_store :
    afterStep (fun t => (t.result, t.phase, t.reg 7, t.pc))
      ((machine 16 2#16 [(2, 0x4803#16)]).setStopRequest (some 4)) =
      some (some .stopped, .store, 3#16, 5#16) := by decide

/-- V-CY-9: the fault wins, and the request is cleared. -/
theorem test_fault_over_stop :
    afterStep (fun t => (t.result, t.stopRequest)) ((machine 16 0#16 [(0, 0xA005#16)]).setStopRequest (some 1)) =
      some (some (.faulted (.illegalOpcode 0xA005#16)), none) := by decide

/-- R112: a RUN stopped between STORE and the next FETCH has completed the instruction and stands at FETCH. -/
theorem test_run_stop_between_instructions :
    (match run 1 ((machine 16 0#16 [(0, 0x1025#16)]).setStopRequest (some 5)) with
      | some (.next t) => some ((t.result, t.phase, t.stopRequest), (t.reg 0, t.pc))
      | some (.fault _) => none
      | some (.refused _) => none
      | none => none) =
      some ((some .stopped, .fetch, none), (5#16, 1#16)) := by decide

/-- V-RS-3 to V-RS-9: the policy of LOAD. -/
theorem test_load :
    (load "f" (some "1025 F025".toList) (machine 4 7#16 [])).2 = machine 4 7#16 [(0, 0x1025#16), (1, 0xF025#16)] ∧
      (load "f" (some "abcd".toList) (machine 4 0#16 [(0, 1#16), (1, 0x1111#16)])).2 =
        machine 4 0#16 [(0, 0xABCD#16), (1, 0x1111#16)] ∧
      load "f" (some "1025 xyz F025".toList) (machine 4 0#16 []) =
        (.failed (.malformedImageError 1), machine 4 0#16 []) := by decide

theorem test_load_refuses :
    (load "f" (some "10000".toList) (machine 4 0#16 [])).1 = .failed (.malformedImageError 0) ∧
      (load "f" (some "0x1025".toList) (machine 4 0#16 [])).1 = .failed (.malformedImageError 0) ∧
      (load "f" (some "0 0 0 0 0".toList) (machine 4 0#16 [])).1 = .failed (.malformedImageError 4) ∧
      load "f" (some []) (machine 4 0#16 []) = (.done, machine 4 0#16 []) ∧
      load "f" none (machine 4 0#16 []) = (.failed (.fileNotFound "f"), machine 4 0#16 []) := by decide

/-- V-RS-1: `reset()` keeps memory. -/
theorem test_reset_command :
    resetCommand (((machine 16 9#16 [(3, 4#16)]).setReg 5 6#16).setPhase .store) = machine 16 0#16 [(3, 4#16)] := by
  decide

/-- A word placed for the host runs as the first instruction after reset. -/
theorem test_withFetchWord :
    afterStep (fun t => (t.reg 0, t.ir, t.pc)) (State.reset.withFetchWord 16 0x1025) =
      some (5#16, 0x1025#16, 1#16) := by decide

/-! ## Witnesses: states and operands that meet the hypotheses of each obligation, each clause of it, with boundary
values (MEM_SIZE − 1 is the last address in bounds, MEM_SIZE the first beyond) -/

theorem witness_SignExtensionOfSixNineElevenBitsIsExact :
    6 ∈ [6, 9, 11] ∧ 9 ∈ [6, 9, 11] ∧ 11 ∈ [6, 9, 11] := by decide

theorem witness_DecodeOfEncodeIsTheInstruction :
    (Instr.addImm 7 7 15#16).wellFormed = true ∧ (Instr.str 7 7 0xFFE0#16).wellFormed = true ∧
      (Instr.br true true true 255#16).wellFormed = true ∧ (Instr.jsr 0xFC00#16).wellFormed = true := by decide

theorem witness_IgnoredBitsChangeNoInstruction :
    0x129B#16 &&& decodedBits (decode 0x129B#16) = 0x1283#16 &&& decodedBits (decode 0x129B#16) ∧
      0xF025#16 &&& decodedBits (decode 0xF025#16) = 0xFFFF#16 &&& decodedBits (decode 0xF025#16) := by decide

theorem witness_StepRunsTheDecodedInstruction_running :
    (machine 16 15#16 []).phase = .fetch ∧ (machine 16 15#16 []).inBounds (machine 16 15#16 []).pc = true ∧
      (machine 16 15#16 []).stopRequest = none := by decide

theorem witness_StepRunsTheDecodedInstruction_stopping :
    ∃ s : State, s.phase = .fetch ∧ s.inBounds s.pc = true ∧ s.stopRequest = some (0 + 1) :=
  ⟨(machine 16 15#16 []).setStopRequest (some 1), by decide⟩

theorem witness_StepRunsTheDecodedInstruction_resumed : (atDecode 16 0#16 0x1025#16).phase ≠ .fetch := by decide

theorem witness_FetchWritesInstructionAndPcOnly :
    ∃ s : State, s.phase = .fetch ∧ s.inBounds s.pc = true ∧ s.stopRequest = some 0 :=
  ⟨(machine 16 15#16 []).setStopRequest (some 0), by decide⟩

theorem witness_FetchBeyondMemoryFaultsAndRepeats :
    ∃ s t : State, s.phase = .fetch ∧ s.inBounds s.pc = false ∧ step s = .next t :=
  ⟨machine 16 16#16 [], _, by decide, by decide, rfl⟩

/-- A step with each kind of result: completed, halted, faulted, stopped. -/
theorem witness_ReturnClearsStopAndPhase :
    (∃ t, step (machine 16 0#16 []) = .next t ∧ t.result ≠ some .stopped) ∧
      (∃ t, step (machine 16 0#16 [(0, 0xF025#16)]) = .next t ∧ t.result = some .halted) ∧
      (∃ t, step (machine 16 16#16 []) = .next t ∧ t.noFault = false) ∧
      (∃ t, step ((machine 16 0#16 []).setStopRequest (some 3)) = .next t ∧ t.result = some .stopped) :=
  ⟨⟨_, rfl, by decide⟩, ⟨_, rfl, by decide⟩, ⟨_, rfl, by decide⟩, ⟨_, rfl, by decide⟩⟩

/-- The first and the last boundary inside an instruction. -/
theorem witness_StoppedStepResumesToTheSameEnd :
    (∃ t, step ((machine 16 2#16 [(2, 0x4803#16)]).setStopRequest (some 0)) = .next t ∧ t.result = some .stopped) ∧
      (∃ t, step ((machine 16 2#16 [(2, 0x4803#16)]).setStopRequest (some 4)) = .next t ∧ t.result = some .stopped) :=
  ⟨⟨_, rfl, by decide⟩, ⟨_, rfl, by decide⟩⟩

/-- The first boundary, with a load that will fault; and the last, with a store beyond memory, an LD from the last
address in bounds and an LDR from it (`machine 16` has MEM_SIZE 16). -/
theorem witness_StopIsTakenAtEachBoundary :
    ∀ x ∈ [(0, Phase.decode, 0x21FF#16), (4, .store, 0x30FF#16), (4, .store, 0x200F#16), (4, .store, 0x604F#16)],
      ∃ s : State, s.phase = .fetch ∧ s.inBounds s.pc = true ∧ s.stopRequest = some x.1 ∧
        x.2.2 = s.memory.read s.pc.toNat ∧ (decode x.2.2).supported = true ∧
        [Phase.decode, .evalAddr, .fetchOp, .execute, .store][x.1]? = some x.2.1 ∧
        (∀ dr off, x.1 = 4 → decode x.2.2 = .ld dr off → s.inBounds (s.pc + off) = true) ∧
        (∀ dr base off, x.1 = 4 → decode x.2.2 = .ldr dr base off → s.inBounds (s.reg base + off) = true) := by
  intro x hx
  refine ⟨(machine 16 0#16 [(0, x.2.2)]).setStopRequest (some x.1), ?_⟩
  simp only [List.mem_cons, List.not_mem_nil, or_false] at hx
  obtain rfl | rfl | rfl | rfl := hx
  · exact ⟨by decide, by decide, rfl, by decide, by decide, by decide, fun _ _ h => (by cases h),
      fun _ _ _ h => (by cases h)⟩
  · exact ⟨by decide, by decide, rfl, by decide, by decide, by decide, fun _ _ _ h => (by cases h),
      fun _ _ _ _ h => (by cases h)⟩
  · exact ⟨by decide, by decide, rfl, by decide, by decide, by decide, fun _ _ _ h => (by cases h; decide),
      fun _ _ _ _ h => (by cases h)⟩
  · exact ⟨by decide, by decide, rfl, by decide, by decide, by decide, fun _ _ _ h => (by cases h),
      fun _ _ _ _ h => (by cases h; decide)⟩

theorem witness_FaultAndHaltWinOverPendingStop :
    (∃ s : State, s.phase = .fetch ∧ s.inBounds s.pc = true ∧ s.stopRequest = some (0 + 1) ∧
      s.memory.read s.pc.toNat = 0xA005#16 ∧ (decode 0xA005#16).illegal = true) ∧
    (∃ s : State, s.phase = .fetch ∧ s.inBounds s.pc = true ∧ s.stopRequest = some (4 + 1) ∧
      s.memory.read s.pc.toNat = 0xF025#16 ∧ decode 0xF025#16 = .halt) :=
  ⟨⟨(machine 16 15#16 [(15, 0xA005#16)]).setStopRequest (some 1), by decide⟩,
    ⟨(machine 16 15#16 [(15, 0xF025#16)]).setStopRequest (some 5), by decide⟩⟩

/-- An illegal opcode, a load beyond memory and a store beyond memory. -/
theorem witness_FaultedInstructionIsSkipped :
    ∀ w ∈ [0xA005#16, 0x21FF#16, 0x703F#16], ∃ s t f, s = machine 16 0#16 [(0, w)] ∧ s.phase = .fetch ∧
      s.inBounds s.pc = true ∧ step s = .next t ∧ t.result = some (.faulted f) := by
  intro w hw
  simp only [List.mem_cons, List.not_mem_nil, or_false] at hw
  obtain rfl | rfl | rfl := hw <;> exact ⟨_, _, _, rfl, by decide, by decide, rfl, rfl⟩

theorem witness_NoInstructionWritesTheFlags :
    ∃ i s t, i = Instr.addReg 1 2 3 ∧ s = atDecode 16 0#16 0x1283#16 ∧ exec i s = .next t :=
  ⟨_, _, _, rfl, rfl, rfl⟩

theorem witness_NoBranchIsTakenWithClearFlags :
    ∃ s t u : State, s.flags = ⟨false, false, false⟩ ∧ step s = .next t ∧
      exec (.br true true true 2#16) s = .next u :=
  ⟨atDecode 16 0#16 0x0E02#16, _, _, rfl, rfl, rfl⟩

theorem witness_OnlyControlTransfersWritePc :
    ∃ i s t, i = Instr.lea 0 1#16 ∧ s = atDecode 16 0#16 0xE001#16 ∧ exec i s = .next t ∧
      i.transfersControl = false :=
  ⟨_, _, _, rfl, rfl, rfl, rfl⟩

/-- An instruction with another destination, and one with none. -/
theorem witness_OnlyTheDestinationRegisterChanges :
    (∃ t, exec (.addImm 0 0 5#16) (atDecode 16 0#16 0x1025#16) = .next t) ∧
      (Instr.addImm 0 0 5#16).destination ≠ some 7 ∧
      (∃ t, exec (.st 0 5#16) (atDecode 16 0#16 0x3005#16) = .next t) ∧
      (Instr.st 0 5#16).destination ≠ some 0 :=
  ⟨⟨_, rfl⟩, by decide, ⟨_, rfl⟩, by decide⟩

/-- JSRR for SEXT, A, R, MAR and MDR and the requested flags; NOT for B. -/
theorem witness_UnwrittenLatchesKeepTheirValue :
    (∃ t, exec (.jsrr 2) (atDecode 16 0#16 0x4080#16) = .next t) ∧
      (∃ t, exec (.notReg 2 2) (atDecode 16 0#16 0x94BF#16) = .next t) ∧
      ((Instr.jsrr 2).loads = false ∧ (Instr.jsrr 2).stores = false ∧ (Instr.jsrr 2).writesSext = false ∧
        (Instr.jsrr 2).writesA = false ∧ (Instr.jsrr 2).writesR = false ∧ (Instr.jsrr 2).branches = false) ∧
      (Instr.notReg 2 2).writesB = false :=
  ⟨⟨_, rfl⟩, ⟨_, rfl⟩, by decide, by decide⟩

theorem witness_DisplayOffsetChangesNoExecution : ∃ t, step (machine 16 0#16 [(0, 0x2205#16)]) = .next t :=
  ⟨_, rfl⟩

theorem witness_AddRegisterMode :
    0x1FDF#16 &&& 0xF020#16 = 0x1000#16 ∧ (atDecode 16 15#16 0x1FDF#16).ready := ⟨by decide, by decide, by decide⟩

theorem witness_AddImmediateMode :
    0x103F#16 &&& 0xF020#16 = 0x1020#16 ∧ (atDecode 16 15#16 0x103F#16).ready := ⟨by decide, by decide, by decide⟩

theorem witness_AndRegisterMode :
    0x5FDF#16 &&& 0xF020#16 = 0x5000#16 ∧ (atDecode 16 15#16 0x5FDF#16).ready := ⟨by decide, by decide, by decide⟩

theorem witness_AndImmediateMode :
    0x5030#16 &&& 0xF020#16 = 0x5020#16 ∧ (atDecode 16 15#16 0x5030#16).ready := ⟨by decide, by decide, by decide⟩

theorem witness_NotComplements :
    0x9280#16 &&& 0xF000#16 = 0x9000#16 ∧ (atDecode 16 15#16 0x9280#16).ready := ⟨by decide, by decide, by decide⟩

theorem witness_LeaGivesTheAddress :
    0xE5FF#16 &&& 0xF000#16 = 0xE000#16 ∧ (atDecode 16 0#16 0xE5FF#16).ready := ⟨by decide, by decide, by decide⟩

/-- The last address in bounds. -/
theorem witness_LdLoadsPcRelative :
    ∃ (s : State) (ea v : Word), s.ready ∧ ea = s.currentPC + 15#16 ∧ s.inBounds ea = true ∧
      v = s.memory.read ea.toNat ∧ v = 0xCAFE#16 :=
  ⟨(atDecode 16 0#16 0x200F#16).setMemory [(15, 0xCAFE#16)], _, _, ⟨by decide, by decide⟩, rfl, by decide, rfl,
    by decide⟩

/-- The last address in bounds, and the first beyond. -/
theorem witness_LdrLoadsBaseOffset :
    0x6043#16 &&& 0xF000#16 = 0x6000#16 ∧
      (∃ (s : State) (ea : Word), s.ready ∧ ea = s.reg 1 + 15#16 ∧ s.inBounds ea = true) ∧
      (∃ (s : State) (ea : Word), s.ready ∧ ea = s.reg 1 + 16#16 ∧ s.inBounds ea = false) :=
  ⟨by decide, ⟨atDecode 16 0#16 0x604F#16, _, ⟨by decide, by decide⟩, rfl, by decide⟩,
    ⟨atDecode 16 0#16 0x6050#16, _, ⟨by decide, by decide⟩, rfl, by decide⟩⟩

theorem witness_StStoresPcRelative :
    ∃ (s : State) (ea : Word), s.ready ∧ ea = s.currentPC + 15#16 ∧ s.inBounds ea = true :=
  ⟨atDecode 16 0#16 0x300F#16, _, ⟨by decide, by decide⟩, rfl, by decide⟩

theorem witness_StrStoresBaseOffset :
    ∃ (s : State) (ea : Word), s.ready ∧ ea = s.reg 1 + 15#16 ∧ s.inBounds ea = true :=
  ⟨atDecode 16 0#16 0x704F#16, _, ⟨by decide, by decide⟩, rfl, by decide⟩

/-- The first address beyond memory, for all three forms. -/
theorem witness_DataFaultKeepsEarlierWritesOnly :
    ∃ (s : State) (ea : Word), s.ready ∧ ea = s.currentPC + 16#16 ∧ ea = s.reg 1 + 16#16 ∧ s.inBounds ea = false :=
  ⟨atDecode 16 0#16 0x2010#16, _, ⟨by decide, by decide⟩, rfl, by decide, by decide⟩

theorem witness_MemoryReadsBackWhatWasWritten :
    (machine 16 0#16 []).inBounds 15#16 = true ∧ (machine 16 0#16 []).inBounds 16#16 = false ∧
      (0#16 : Word) ≠ 15#16 := by decide

/-- ST to its own next address, then the step from there. -/
theorem witness_StoreIsSeenByTheNextFetch :
    (∃ s t u : State, s.ready ∧ s.inBounds (s.currentPC + 1#16) = true ∧ exec (.st 0 1#16) s = .next t ∧
      step (t.setPc (s.currentPC + 1#16)) = .next u) ∧
    (∃ s t u : State, s.ready ∧ s.inBounds (s.reg 1 + 15#16) = true ∧ exec (.str 0 1 15#16) s = .next t ∧
      step (t.setPc (s.reg 1 + 15#16)) = .next u) :=
  ⟨⟨atDecode 16 0#16 0x3001#16, _, _, ⟨by decide, by decide⟩, by decide, rfl, rfl⟩,
    ⟨atDecode 16 0#16 0x704F#16, _, _, ⟨by decide, by decide⟩, by decide, rfl, rfl⟩⟩

theorem witness_BranchTestsRequestedFlags : (atDecode 16 2#16 0x0402#16).ready := ⟨by decide, by decide⟩

theorem witness_JumpGoesToTheRegister :
    0xCEFF#16 &&& 0xF000#16 = 0xC000#16 ∧ (atDecode 16 0#16 0xCEFF#16).ready := ⟨by decide, by decide, by decide⟩

theorem witness_JsrLinksAndCalls : (atDecode 16 2#16 0x4803#16).ready := ⟨by decide, by decide⟩

theorem witness_JsrrReadsItsBaseAfterTheLink : (atDecode 16 4#16 0x41C0#16).ready := ⟨by decide, by decide⟩

/-- A jump to the first address beyond memory. -/
theorem witness_TransferBeyondMemoryFaultsAtTheNextFetch :
    (Instr.jmp 3).transfersControl = true ∧
      ∃ s t : State, s.ready ∧ exec (.jmp 3) s = .next t ∧ s.inBounds t.pc = false :=
  ⟨by decide, (atDecode 16 0#16 0xC0C0#16).setReg 3 16#16, _, ⟨by decide, by decide⟩, rfl, by decide⟩

/-- V-CF-8. -/
theorem witness_TakenSelfBranchHangs :
    ∃ s : State, s.phase = .fetch ∧ s.stopRequest = none ∧ s.inBounds s.pc = true ∧
      decode (s.memory.read s.pc.toNat) = .br true true true 0#16 ∧
      CondFlags.anyRequested ⟨true, true, true⟩ s.flags = true :=
  ⟨(machine 16 5#16 [(5, 0x0E00#16)]).setFlags (bits 0 1 0), by decide⟩

theorem witness_HaltReturnsToTheHost : (atDecode 16 15#16 0xF025#16).ready := ⟨by decide, by decide⟩

theorem witness_IllegalOpcodesRaise :
    Instr.reservedIllegal ∈ [Instr.rtiIllegal, .ldiIllegal, .stiIllegal, .reservedIllegal] ∧
      (atDecode 16 15#16 0xD123#16).ready := ⟨by decide, by decide, by decide⟩

theorem witness_RegisterInstructionsFrame :
    ∃ t, exec (.notReg 2 2) (atDecode 16 0#16 0x94BF#16) = .next t := ⟨_, rfl⟩

/-- A load that completes, and one that faults. -/
theorem witness_LoadsFrame :
    (∃ t, exec (.ld 1 5#16) (atDecode 16 0#16 0x2205#16) = .next t) ∧
      (∃ t, exec (.ldr 0 1 16#16) (atDecode 16 0#16 0x6050#16) = .next t) := ⟨⟨_, rfl⟩, ⟨_, rfl⟩⟩

theorem witness_StoresFrame :
    ∃ (s t u : State) (ea eb : Word), s.phase = .decode ∧ exec (.st 3 4#16) s = .next t ∧ ea = s.pcRelative 4#16 ∧
      exec (.str 3 1 4#16) s = .next u ∧ eb = s.reg 1 + 4#16 ∧ ea ≠ eb :=
  ⟨atDecode 16 3#16 0x3604#16, _, _, _, _, by decide, rfl, rfl, rfl, rfl, by decide⟩

/-- A call and a branch. -/
theorem witness_ControlTransfersFrame :
    (Instr.jsr 3#16).transfersControl = true ∧ (Instr.jsr 3#16).call = true ∧
      (∃ t, exec (.jsr 3#16) (atDecode 16 2#16 0x4803#16) = .next t) ∧
      (Instr.jmp 3).transfersControl = true ∧ (Instr.jmp 3).branches = false ∧
      (∃ t, exec (.jmp 3) (atDecode 16 0#16 0xC0C0#16) = .next t) :=
  ⟨by decide, by decide, ⟨_, rfl⟩, by decide, by decide, ⟨_, rfl⟩⟩

/-- A legal state whose step stores a word. -/
theorem witness_StepKeepsTheStateLegal :
    (machine 16 3#16 [(3, 0x3604#16)]).Legal ∧ ∃ t, step (machine 16 3#16 [(3, 0x3604#16)]) = .next t :=
  ⟨⟨by decide, by decide, by decide⟩, ⟨_, rfl⟩⟩

/-- A pass saved at STORE by a stop: a call, whose PC has already moved. -/
theorem witness_StepKeepsThePassInFlight :
    ∃ s t : State, s.phase = .store ∧ s.pc = 5#16 ∧ s.InFlight ∧ step s = .next t :=
  ⟨((((machine 16 5#16 [(2, 0x4803#16)]).setIr 0x4803#16).setCurrentPC 2#16).setPhase .store).setResult
      (some .stopped), _, by decide, by decide,
    ⟨by decide, by decide, by decide, by decide⟩, rfl⟩

theorem witness_CreationIsLegalAndInFlight :
    (⟨1, 0#16⟩ : Config).valid ∧ (⟨65536, 0xFFFF#16⟩ : Config).valid ∧ Config.atReset.valid := by decide

/-- A token is written to the last cell; the cell after the image is not. -/
theorem witness_LoadWritesTheImageFromZero :
    ∃ t, load "f" (some "1025 F025".toList) (machine 2 0#16 []) = (.done, t) ∧
      (tokens "1025 F025".toList)[1]? = some "F025".toList ∧ (tokens "1025 F025".toList)[2]? = none :=
  ⟨_, rfl, by decide, by decide⟩

/-- A token that is not legal, and one beyond memory. -/
theorem witness_FailedLoadChangesNothing :
    (∃ f t, load "f" (some "1 xyz".toList) (machine 2 0#16 []) = (.failed f, t) ∧ f = .malformedImageError 1) ∧
      (∃ f t, load "f" (some "1 2 3".toList) (machine 2 0#16 []) = (.failed f, t) ∧ f = .malformedImageError 2) ∧
      (tokens "1 2 3".toList)[1]? = some "2".toList :=
  ⟨⟨_, _, rfl, rfl⟩, ⟨_, _, rfl, rfl⟩, by decide⟩

theorem witness_HostMemoryWriteIsBoundsChecked :
    (machine 16 0#16 []).config.memSize ≤ 16 ∧ 15 < (machine 16 0#16 []).config.memSize := by decide

/-- A whitespace character and one that is none; a digit of each row and its value; a legal token, the largest. -/
theorem witness_ImageTokensAreSeparatedHexadecimalWords :
    isSeparator '\t' = true ∧ (∀ c ∈ ['x', 'y'], isSeparator c = false) ∧ hexDigit 'f' = some 15 ∧
      hexDigit 'A' = some 10 ∧ tokenWord "FFFF".toList = some 0xFFFF#16 :=
  ⟨rfl, by simp [isSeparator], rfl, rfl, rfl⟩

/-- A step that halts; and steps that complete: from FETCH with no request and with k = 4, 5 and 6, and from STORE with
k = 0, which has no check left inside its pass. -/
theorem witness_RunIsStepAfterStep :
    (∃ u, step ((machine 16 0#16 [(0, 0xF025#16)]).setStopRequest none) = .next u ∧ u.result ≠ some .stepped) ∧
      (∀ r ∈ [none, some 4, some 5, some 6], ∃ s u : State, s = (machine 16 0#16 []).setStopRequest r ∧
        step (s.setStopRequest none) = .next u ∧ u.result = some .stepped ∧ s.phase.checksLeft = 5) ∧
      (∃ s u : State, s.stopRequest = some 0 ∧ step (s.setStopRequest none) = .next u ∧ u.result = some .stepped ∧
        s.phase.checksLeft = 0) := by
  refine ⟨⟨_, rfl, by decide⟩, fun r hr => ?_,
    ⟨((machine 16 1#16 []).setPhase .store).setStopRequest (some 0), _, rfl, rfl, rfl, rfl⟩⟩
  simp only [List.mem_cons, List.not_mem_nil, or_false] at hr
  obtain rfl | rfl | rfl | rfl := hr <;> exact ⟨_, _, rfl, rfl, rfl, rfl⟩

end Sys2Proof.Tests
end

section
/-! SUPPORT. Sign extension of a word's low bits (00_scope.md R9, R10), bit by bit: what `sextLow` and the two masks of
R9's pseudocode hold at each position, and that the pseudocode is `sextLow` at every width. -/

namespace Sys2Proof.Proofs.SignExtension

open Sys2Proof

/-- The low n bits are kept, and every higher bit is the sign bit n−1. -/
theorem getLsbD_sextLow {n i : Nat} (hn : 0 < n) (hi : i < 16) (w : Word) :
    (sextLow n w).getLsbD i = w.getLsbD (if i < n then i else n - 1) := by
  rw [sextLow, BitVec.getLsbD_signExtend]
  split
  · case isTrue hlow => simp [hi, hlow]
  · case isFalse hhigh => simp [hi, hn, BitVec.msb_eq_getLsbD_last]

/-- The mask that selects v in R9: ones below position n. -/
theorem getLsbD_lowOnes {n i : Nat} (hi : i < 16) :
    (BitVec.ofNat 16 (2 ^ n - 1)).getLsbD i = decide (i < n) := by
  rw [BitVec.getLsbD_ofNat, Nat.testBit_two_pow_sub_one]
  simp [hi]

/-- The mask R9 sets for a negative v: ones from position n up. -/
theorem getLsbD_highOnes {n i : Nat} (hi : i < 16) :
    (0xFFFF#16 <<< n).getLsbD i = !decide (i < n) := by
  have hones : 0xFFFF#16 = BitVec.allOnes 16 := rfl
  have hin : i - n < 16 := by omega
  rw [hones, BitVec.getLsbD_shiftLeft, BitVec.getLsbD_allOnes]
  simp [hi, hin]

/-- R9's pseudocode, for every width n > 0, by the sign bit and by whether a position lies below n. -/
theorem sextLow_eq_masks {n : Nat} (hn : 0 < n) (w : Word) :
    sextLow n w =
      if w.getLsbD (n - 1) then (w &&& BitVec.ofNat 16 (2 ^ n - 1)) ||| (0xFFFF#16 <<< n)
      else w &&& BitVec.ofNat 16 (2 ^ n - 1) := by
  refine BitVec.eq_of_getLsbD_eq fun i hi => ?_
  rw [getLsbD_sextLow hn hi]
  by_cases hsign : w.getLsbD (n - 1) = true
  · rw [if_pos hsign, BitVec.getLsbD_or, BitVec.getLsbD_and, getLsbD_lowOnes hi, getLsbD_highOnes hi]
    by_cases hlow : i < n <;> simp [hlow, hsign]
  · rw [if_neg hsign, BitVec.getLsbD_and, getLsbD_lowOnes hi]
    by_cases hlow : i < n <;> simp [hlow, hsign]

/-- Settles O2: R9's pseudocode is `sextLow` at every positive width, and 6, 9 and 11 are positive. -/
theorem signExtensionOfSixNineElevenBitsIsExact : Obligations.SignExtensionOfSixNineElevenBitsIsExact := by
  intro w n hn
  have hpos : 0 < n := by
    simp only [List.mem_cons, List.not_mem_nil, or_false] at hn
    omega
  exact sextLow_eq_masks hpos w

end Sys2Proof.Proofs.SignExtension
end

section
/-! SUPPORT. The two memory operations of 20_memory.md (R53, R54) together: what `memRead` answers once memory has been
replaced, and what it answers after a `memWrite` that was accepted, at the written address and at every other. -/

namespace Sys2Proof.Proofs.MemoryOperations

open Sys2Proof Sys2Proof.Machine

/-- A read looks at the bound, which replacing memory keeps, and at the memory put in. -/
theorem setMemory_memRead (s : State) (m : Memory) (x : Word) :
    (s.setMemory m).memRead x = if s.inBounds x then .ok (m.read x.toNat) else .error (.memoryFault x) := rfl

/-- The word written is read back. -/
theorem memRead_memWrite_same {s t : State} {x v : Word} (h : s.memWrite x v = .ok t) : t.memRead x = .ok v := by
  obtain ⟨hin, rfl⟩ := State.memWrite_ok.mp h
  rw [setMemory_memRead, if_pos hin, Memory.read_write, if_pos rfl]

/-- Every other address reads as before, in bounds or not: distinct words are distinct cells. -/
theorem memRead_memWrite_ne {s t : State} {x y v : Word} (h : s.memWrite x v = .ok t) (hne : y ≠ x) :
    t.memRead y = s.memRead y := by
  obtain ⟨-, rfl⟩ := State.memWrite_ok.mp h
  have hcell : y.toNat ≠ x.toNat := fun heq => hne (BitVec.eq_of_toNat_eq heq)
  rw [setMemory_memRead, Memory.read_write, if_neg hcell, State.memRead]

/-- An accepted write changes memory alone. -/
theorem memWrite_frame {s t : State} {x v : Word} (h : s.memWrite x v = .ok t) : t = s.setMemory t.memory := by
  obtain ⟨-, rfl⟩ := State.memWrite_ok.mp h
  rw [State.setMemory_memory]

/-- Settles O36, by whether the address is in bounds: inside, from the three facts about an accepted write; beyond,
both operations raise the fault. -/
theorem memoryReadsBackWhatWasWritten : Obligations.MemoryReadsBackWhatWasWritten := by
  intro s x v
  constructor
  · intro hin
    have hread : s.memRead x = .ok (s.memory.read x.toNat) := State.memRead_ok.mpr ⟨hin, rfl⟩
    have hwrite : s.memWrite x v = .ok (s.setMemory (s.memory.write x.toNat v)) := State.memWrite_ok.mpr ⟨hin, rfl⟩
    exact ⟨hread, _, hwrite, memRead_memWrite_same hwrite, fun _ => memRead_memWrite_ne hwrite, memWrite_frame hwrite⟩
  · intro hout
    exact ⟨State.memRead_error.mpr ⟨hout, rfl⟩, State.memWrite_error.mpr ⟨hout, rfl⟩⟩

end Sys2Proof.Proofs.MemoryOperations
end

section
/-! SUPPORT. The fields of a word as numbers (30_encoding.md R71 to R78): each extractor is its slice, and each
immediate is its field read as two's complement, at every width. -/

namespace Sys2Proof.Proofs.Fields

open Sys2Proof

/-- A slice as a number. -/
theorem toNat_slice (w : Word) (lo n : Nat) : (w.extractLsb' lo n).toNat = w.toNat / 2 ^ lo % 2 ^ n := by
  rw [BitVec.extractLsb'_toNat, Nat.shiftRight_eq_div_pow]

/-- One bit as a number. -/
theorem getLsbD_eq_decide (w : Word) (i : Nat) : w.getLsbD i = decide (w.toNat / 2 ^ i % 2 = 1) :=
  Nat.testBit_eq_decide_div_mod_eq

/-- The opcode's bits are the top four, so no remainder is taken. -/
theorem toNat_opcodeBits (w : Word) : (opcodeBits w).toNat = w.toNat / 4096 := by
  have hw : w.toNat < 65536 := w.isLt
  rw [opcodeBits, toNat_slice]
  omega

/-- Settles O1, slice by slice. -/
theorem decoderFieldsAreTheirBitSlices : Obligations.DecoderFieldsAreTheirBitSlices := by
  intro w
  refine ⟨toNat_opcodeBits w, toNat_slice w 9 3, toNat_slice w 6 3, ?_, getLsbD_eq_decide w 5,
    getLsbD_eq_decide w 11, getLsbD_eq_decide w 11, getLsbD_eq_decide w 10, getLsbD_eq_decide w 9⟩
  have hslice : (sourceReg2 w).val = w.toNat / 2 ^ 0 % 2 ^ 3 := toNat_slice w 0 3
  omega

/-! ## Sign extension as a number -/

/-- Sign extension keeps the number its field holds as two's complement. -/
theorem toInt_sextLow {n : Nat} (hn : n ≤ 16) (w : Word) : (sextLow n w).toInt = (w.extractLsb' 0 n).toInt :=
  BitVec.toInt_signExtend_of_le hn

/-- The low n bits of a word as two's complement. -/
theorem toInt_lowSlice (w : Word) (n : Nat) :
    (w.extractLsb' 0 n).toInt = (w.toNat : Int).bmod (2 ^ n) := by
  rw [BitVec.toInt_eq_toNat_bmod, toNat_slice, pow_zero, Nat.div_one, Int.natCast_mod, Int.emod_bmod]

/-- The same by its sign: below half the range the field itself, above it the field less the range. -/
theorem toInt_sextLow_eq_ite {n : Nat} (hn : n ≤ 16) (w : Word) :
    (sextLow n w).toInt =
      if w.toNat % 2 ^ n < (2 ^ n + 1) / 2 then (w.toNat % 2 ^ n : Int) else (w.toNat % 2 ^ n : Int) - 2 ^ n := by
  rw [toInt_sextLow hn, toInt_lowSlice, Int.bmod_def]
  norm_cast

/-- Settles O3: the four widths of `toInt_sextLow_eq_ite`. -/
theorem immediatesAreTheirSignedFields : Obligations.ImmediatesAreTheirSignedFields := fun w =>
  ⟨toInt_sextLow_eq_ite (n := 5) (by decide) w, toInt_sextLow_eq_ite (n := 6) (by decide) w,
    toInt_sextLow_eq_ite (n := 9) (by decide) w, toInt_sextLow_eq_ite (n := 11) (by decide) w⟩

/-- What sign extension gives lies in the range of its field (R9). -/
theorem fitsSigned_sextLow {n : Nat} (hn : n ≤ 16) (w : Word) : fitsSigned n (sextLow n w) = true := by
  rw [fitsSigned, toInt_sextLow hn]
  exact decide_eq_true ⟨BitVec.le_toInt _, BitVec.toInt_lt⟩

/-- A value in the range of its field is the sign extension of its low bits. -/
theorem sextLow_of_fitsSigned {n : Nat} (hpos : 0 < n) (hn : n ≤ 16) {v : Word} (h : fitsSigned n v = true) :
    sextLow n v = v := by
  obtain ⟨hlow, hhigh⟩ := of_decide_eq_true h
  have hrange : (2 : Int) ^ n = 2 ^ (n - 1) * 2 := by rw [← pow_succ, Nat.sub_add_cancel hpos]
  have hself : v.toInt.bmod (2 ^ n) = v.toInt :=
    Int.bmod_eq_of_le_mul_two (by push_cast; omega) (by push_cast; omega)
  have hdvd : (2 ^ n : Nat) ∣ 2 ^ 16 := pow_dvd_pow 2 hn
  refine BitVec.eq_of_toInt_eq ?_
  rw [toInt_sextLow hn, toInt_lowSlice, ← hself]
  conv_rhs => rw [BitVec.toInt_eq_toNat_bmod, Int.bmod_bmod_of_dvd hdvd]

/-! ## The opcode -/

theorem opcode_ofBits_toBits (o : Opcode) : Opcode.ofBits o.toBits = o := by
  cases o <;> rfl

theorem opcode_toBits_ofBits (b : BitVec 4) : (Opcode.ofBits b).toBits = b := by
  revert b
  decide

/-- A word's opcode is decided by its top four bits, and decides them. -/
theorem opcode_eq_iff {w : Word} {o : Opcode} : opcode w = o ↔ opcodeBits w = o.toBits := by
  constructor
  · rintro rfl
    exact (opcode_toBits_ofBits _).symm
  · intro h
    rw [opcode, h, opcode_ofBits_toBits]

end Sys2Proof.Proofs.Fields
end

section
/-! SUPPORT. Encoding and decoding (30_encoding.md sections 3 and 4): a field placed in a word is read back, so the
decoder reads from an encoding the operands it was made of. -/

namespace Sys2Proof.Proofs.Encoding

open Sys2Proof Sys2Proof.Proofs.Fields

/-! ## A placed field, read back -/

theorem getLsbD_place {n i : Nat} (lo : Nat) (field : BitVec n) (hi : i < 16) :
    (place lo field).getLsbD i = (decide (lo ≤ i) && field.getLsbD (i - lo)) := by
  simp [place, hi, ← decide_not]

/-- A bit of it, in the spelling `simp` gives to bits. -/
@[simp] theorem getElem_place {n i : Nat} (lo : Nat) (field : BitVec n) (hi : i < 16) :
    (place lo field)[i] = (decide (lo ≤ i) && field.getLsbD (i - lo)) := by
  rw [← BitVec.getLsbD_eq_getElem, getLsbD_place lo field hi]

/-- Read where it was placed. -/
@[simp] theorem slice_place_same {n lo : Nat} (field : BitVec n) (h : lo + n ≤ 16) :
    (place lo field).extractLsb' lo n = field := by
  refine BitVec.eq_of_getLsbD_eq fun i hi => ?_
  rw [BitVec.getLsbD_extractLsb', getLsbD_place lo field (by omega)]
  simp [hi]

/-- Any other slice of it is zero. -/
@[simp] theorem slice_place_disjoint {n lo at' len : Nat} (field : BitVec n) (hlen : at' + len ≤ 16)
    (h : at' + len ≤ lo ∨ lo + n ≤ at') : (place lo field).extractLsb' at' len = 0#len := by
  refine BitVec.eq_of_getLsbD_eq fun i hi => ?_
  rw [BitVec.getLsbD_extractLsb', getLsbD_place lo field (by omega), BitVec.getLsbD_zero]
  rcases h with hbelow | habove
  · have hlo : ¬ lo ≤ at' + i := by omega
    simp [hlo]
  · have hout : n ≤ at' + i - lo := by omega
    simp [BitVec.getLsbD_of_ge _ _ hout]

/-- The opcode of an encoding is its row's. -/
theorem opcode_encode (i : Instr) : opcode (encode i) = Opcode.ofBits ((rowOf i).value.extractLsb' 12 4) := by
  rw [opcode, opcodeBits]
  cases i <;>
    simp [encode, BitVec.extractLsb'_or, rowOf, Opcode.toBits]

@[simp] theorem toFin_regBits (i : Reg) : (regBits i).toFin = i := rfl

theorem signExtend_lowField {n : Nat} {v : Word} (h : fitsSigned n v = true) (hpos : 0 < n) (hn : n ≤ 16) :
    (lowField n v).signExtend 16 = v :=
  sextLow_of_fitsSigned hpos hn h

/-- Settles O5, family by family: the opcode and the mode bit choose the row; each operand's field is read where it was
placed, and no other field reaches into it; an immediate or offset in its range is the sign extension of its field. -/
theorem decodeOfEncodeIsTheInstruction : Obligations.DecodeOfEncodeIsTheInstruction := by
  intro i hwf
  rw [decode, opcode_encode]
  cases i with
  | br =>
    simp [rowOf, Opcode.ofBits, encode, requestedN, requestedZ, requestedP, bitOf, pcOffset9, sextLow,
      BitVec.extractLsb'_or, signExtend_lowField hwf]
  | addReg | andReg =>
    simp [rowOf, Opcode.ofBits, encode, immediateModeBit, destReg, baseReg, sourceReg2, BitVec.extractLsb'_or]
  | addImm | andImm =>
    simp [rowOf, Opcode.ofBits, encode, immediateModeBit, destReg, baseReg, imm5, sextLow, BitVec.extractLsb'_or,
      signExtend_lowField hwf]
  | ld | st | lea =>
    simp [rowOf, Opcode.ofBits, encode, destReg, pcOffset9, sextLow, BitVec.extractLsb'_or, signExtend_lowField hwf]
  | ldr | str =>
    simp [rowOf, Opcode.ofBits, encode, destReg, baseReg, offset6, sextLow, BitVec.extractLsb'_or,
      signExtend_lowField hwf]
  | jsr => simp [rowOf, Opcode.ofBits, encode, bit11, pcOffset11, sextLow, BitVec.extractLsb'_or, signExtend_lowField hwf]
  | jsrr => simp [rowOf, Opcode.ofBits, encode, bit11, baseReg, BitVec.extractLsb'_or]
  | notReg => simp [rowOf, Opcode.ofBits, encode, destReg, baseReg, BitVec.extractLsb'_or]
  | jmp => simp [rowOf, Opcode.ofBits, encode, baseReg, BitVec.extractLsb'_or]
  | rtiIllegal | ldiIllegal | stiIllegal | reservedIllegal | halt => simp [rowOf, Opcode.ofBits]

end Sys2Proof.Proofs.Encoding
end

section
/-! SUPPORT. Which bits of a word decide its instruction (30_encoding.md sections 3 and 4): the three masks of the
opcode table read the opcode's bits, IR[5] and IR[11], no word meets two rows, and bits a row does not decode are
not read. -/

namespace Sys2Proof.Proofs.Decoding

open Sys2Proof Sys2Proof.Proofs.Fields Sys2Proof.Proofs.Encoding

/-! ## What a mask reads -/

/-- A slice that lies under the mask is the masked word's slice. -/
theorem slice_of_mask {w m v : Word} {lo n : Nat} (hm : m.extractLsb' lo n = BitVec.allOnes n) (h : w &&& m = v) :
    w.extractLsb' lo n = v.extractLsb' lo n := by
  rw [← h, BitVec.extractLsb'_and, hm, BitVec.and_allOnes]

/-- A bit under the mask is the masked word's bit. -/
theorem bit_of_mask {w m v : Word} {i : Nat} (hm : m.getLsbD i = true) (h : w &&& m = v) :
    w.getLsbD i = v.getLsbD i := by
  rw [← h, BitVec.getLsbD_and, hm, Bool.and_true]

/-- Mask 0xF000 reads the opcode alone. -/
theorem opcodeMask (w : Word) : w &&& 0xF000#16 = place 12 (opcodeBits w) := by
  ext i hi
  interval_cases i <;> simp [opcodeBits]

/-- Mask 0xF020 reads the opcode and IR[5]. -/
theorem modeMask (w : Word) :
    w &&& 0xF020#16 = place 12 (opcodeBits w) ||| place 5 (bitOf (immediateModeBit w)) := by
  ext i hi
  interval_cases i <;> simp [opcodeBits, bitOf, immediateModeBit]

/-- Mask 0xF800 reads the opcode and IR[11]. -/
theorem callMask (w : Word) : w &&& 0xF800#16 = place 12 (opcodeBits w) ||| place 11 (bitOf (bit11 w)) := by
  ext i hi
  interval_cases i <;> simp [opcodeBits, bitOf, bit11]

/-- The opcode of a word from its masked value. -/
theorem opcode_of_mask {w m v : Word} (h : w &&& m = v) (hm : m.extractLsb' 12 4 = BitVec.allOnes 4) :
    opcode w = opcode v := by
  rw [opcode, opcode, opcodeBits, slice_of_mask hm h, opcodeBits]

/-! ## The table -/

/-- A word meets the mask and match of its own instruction's row: the row's mask reads what `decode` reads. -/
theorem rowMatches_rowOf_decode (w : Word) : rowMatches (rowOf (decode w)) w = true := by
  rw [rowMatches, beq_iff_eq, decode]
  cases ho : opcode w
  case add | and =>
    cases hm : immediateModeBit w <;> simp [rowOf, modeMask, opcode_eq_iff.mp ho, hm] <;> rfl
  case jsr =>
    cases hc : bit11 w <;> simp [rowOf, callMask, opcode_eq_iff.mp ho, hc] <;> rfl
  all_goals simp [rowOf, opcodeMask, opcode_eq_iff.mp ho]; rfl

/-- Two different rows ask for different values of a bit that both masks select. -/
theorem rows_conflict : ∀ r ∈ opcodeTable, ∀ q ∈ opcodeTable,
    r.value &&& (r.mask &&& q.mask) = q.value &&& (r.mask &&& q.mask) → r = q := by
  decide

theorem row_unique {w : Word} {r q : Row} (hr : r ∈ opcodeTable) (hq : q ∈ opcodeTable)
    (hrw : rowMatches r w = true) (hqw : rowMatches q w = true) : r = q := by
  rw [rowMatches, beq_iff_eq] at hrw hqw
  refine rows_conflict r hr q hq ?_
  calc r.value &&& (r.mask &&& q.mask)
    _ = w &&& (r.mask &&& q.mask) := by rw [← hrw, BitVec.and_assoc, ← BitVec.and_assoc r.mask, BitVec.and_self]
    _ = q.value &&& (r.mask &&& q.mask) := by
      rw [← hqw, BitVec.and_assoc, BitVec.and_comm r.mask, ← BitVec.and_assoc q.mask, BitVec.and_self]

theorem rowOf_mem_opcodeTable (i : Instr) : rowOf i ∈ opcodeTable := by
  cases i <;> simp [rowOf, opcodeTable]

/-- Settles O4: a word's own row is in the table and matches, and no other row can match too. -/
theorem everyWordSelectsExactlyItsRow : Obligations.EveryWordSelectsExactlyItsRow := by
  intro w
  have hmem := rowOf_mem_opcodeTable (decode w)
  have hrow : ∀ r ∈ opcodeTable, rowMatches r w = (r == rowOf (decode w)) := by
    intro r hr
    rw [Bool.eq_iff_iff, beq_iff_eq]
    constructor
    · exact fun h => row_unique hr hmem h (rowMatches_rowOf_decode w)
    · rintro rfl
      exact rowMatches_rowOf_decode w
  have hnodup : opcodeTable.Nodup := by decide
  rw [List.filter_congr hrow, List.filter_beq, List.count_eq_one_of_mem hnodup hmem, List.replicate_one]

/-! ## Well-formedness and ignored bits -/

/-- Settles O6: every immediate or offset is a `sextLow`, and that lies in its field's range. -/
theorem decodedInstructionsAreWellFormed : Obligations.DecodedInstructionsAreWellFormed := by
  intro w
  have h5 : fitsSigned 5 (imm5 w) = true := fitsSigned_sextLow (by decide) w
  have h6 : fitsSigned 6 (offset6 w) = true := fitsSigned_sextLow (by decide) w
  have h9 : fitsSigned 9 (pcOffset9 w) = true := fitsSigned_sextLow (by decide) w
  have h11 : fitsSigned 11 (pcOffset11 w) = true := fitsSigned_sextLow (by decide) w
  rw [decode]
  cases opcode w
  case add | and => cases immediateModeBit w <;> simp [Instr.wellFormed, h5]
  case jsr => cases bit11 w <;> simp [Instr.wellFormed, h11]
  all_goals simp [Instr.wellFormed, h6, h9]

theorem decodedBits_select_opcode (i : Instr) : (decodedBits i).extractLsb' 12 4 = BitVec.allOnes 4 := by
  cases i <;> simp [decodedBits]

/-- Words that agree under a mask have the same slices under it. -/
theorem slice_congr {w v m : Word} {lo n : Nat} (h : w &&& m = v &&& m)
    (hm : m.extractLsb' lo n = BitVec.allOnes n) : v.extractLsb' lo n = w.extractLsb' lo n := by
  rw [slice_of_mask hm h, slice_of_mask hm rfl]

theorem bit_congr {w v m : Word} {i : Nat} (h : w &&& m = v &&& m) (hm : m.getLsbD i = true) :
    v.getLsbD i = w.getLsbD i := by
  rw [bit_of_mask hm h, bit_of_mask hm rfl]

/-- A register field under the mask. -/
theorem reg_congr {w v m : Word} {lo : Nat} (h : w &&& m = v &&& m) (hm : m.extractLsb' lo 3 = BitVec.allOnes 3) :
    (v.extractLsb' lo 3).toFin = (w.extractLsb' lo 3).toFin := by
  rw [slice_congr h hm]

/-- Settles O7: the opcode lies under every row's decoded bits; where not all bits are decoded, so does each field of
the row's instruction. -/
theorem ignoredBitsChangeNoInstruction : Obligations.IgnoredBitsChangeNoInstruction := by
  intro w v h
  have hop : opcode v = opcode w := congrArg Opcode.ofBits (slice_congr h (decodedBits_select_opcode _))
  by_cases hfull : decodedBits (decode w) = BitVec.allOnes 16
  · rw [hfull, BitVec.and_allOnes, BitVec.and_allOnes] at h
    rw [h]
  · rw [decode, hop]
    rw [decode] at h hfull ⊢
    cases ho : opcode w <;> simp only [ho] at h hfull ⊢
    case add | and =>
      cases hm : immediateModeBit w <;>
        simp only [hm, Bool.false_eq_true, if_true, if_false, decodedBits] at h hfull ⊢
      case true => exact absurd rfl hfull
      case false =>
        have hv : immediateModeBit v = false := (bit_congr h (by decide)).trans hm
        have hdr : destReg v = destReg w := reg_congr h (by decide)
        have hsr1 : baseReg v = baseReg w := reg_congr h (by decide)
        have hsr2 : sourceReg2 v = sourceReg2 w := reg_congr h (by decide)
        simp [hv, hdr, hsr1, hsr2]
    case jsr =>
      cases hc : bit11 w <;> simp only [hc, Bool.false_eq_true, if_true, if_false, decodedBits] at h hfull ⊢
      case true => exact absurd rfl hfull
      case false =>
        have hv : bit11 v = false := (bit_congr h (by decide)).trans hc
        have hbase : baseReg v = baseReg w := reg_congr h (by decide)
        simp [hv, hbase]
    case not =>
      have hdr : destReg v = destReg w := reg_congr h (by simp [decodedBits])
      have hsr1 : baseReg v = baseReg w := reg_congr h (by simp [decodedBits])
      rw [hdr, hsr1]
    case jmp =>
      have hbase : baseReg v = baseReg w := reg_congr h (by simp [decodedBits])
      rw [hbase]
    all_goals exact absurd rfl hfull

/-! ## HALT and the illegal opcodes -/

/-- An opcode by its number. -/
theorem opcode_eq_iff_toNat {w : Word} {o : Opcode} : opcode w = o ↔ w.toNat / 4096 = o.toBits.toNat := by
  rw [opcode_eq_iff, ← BitVec.toNat_inj, toNat_opcodeBits]

theorem decode_eq_halt_iff {w : Word} : decode w = .halt ↔ opcode w = .halt := by
  rw [decode]
  cases opcode w
  case add | and => cases immediateModeBit w <;> simp
  case jsr => cases bit11 w <;> simp
  all_goals simp

theorem decode_illegal_iff {w : Word} :
    (decode w).illegal = true ↔ opcode w ∈ [Opcode.rti, .ldi, .sti, .reserved] := by
  rw [decode]
  cases opcode w
  case add | and => cases immediateModeBit w <;> simp [Instr.illegal]
  case jsr => cases bit11 w <;> simp [Instr.illegal]
  all_goals simp [Instr.illegal]

/-- Settles O8: `decode` answers these by the opcode, and an opcode is its number. -/
theorem opcodeBitsAloneDecideHaltAndIllegal : Obligations.OpcodeBitsAloneDecideHaltAndIllegal := by
  intro w
  rw [decode_eq_halt_iff, decode_illegal_iff]
  simp only [List.mem_cons, List.not_mem_nil, or_false, opcode_eq_iff_toNat]
  exact ⟨Iff.rfl, Iff.rfl⟩

/-- Settles O9: ten fixed words. -/
theorem exampleWordsDecode : Obligations.ExampleWordsDecode := by
  unfold Obligations.ExampleWordsDecode
  decide

/-! ## The instruction of a masked word (R81 to R88) -/

section
variable {w : Word}

theorem decode_addReg (h : w &&& 0xF020#16 = 0x1000#16) :
    decode w = .addReg (destReg w) (baseReg w) (sourceReg2 w) := by
  have ho : opcode w = .add := opcode_of_mask h (by decide)
  have hm : immediateModeBit w = false := bit_of_mask (by decide) h
  simp [decode, ho, hm]

theorem decode_addImm (h : w &&& 0xF020#16 = 0x1020#16) :
    decode w = .addImm (destReg w) (baseReg w) (imm5 w) := by
  have ho : opcode w = .add := opcode_of_mask h (by decide)
  have hm : immediateModeBit w = true := bit_of_mask (by decide) h
  simp [decode, ho, hm]

theorem decode_andReg (h : w &&& 0xF020#16 = 0x5000#16) :
    decode w = .andReg (destReg w) (baseReg w) (sourceReg2 w) := by
  have ho : opcode w = .and := opcode_of_mask h (by decide)
  have hm : immediateModeBit w = false := bit_of_mask (by decide) h
  simp [decode, ho, hm]

theorem decode_andImm (h : w &&& 0xF020#16 = 0x5020#16) :
    decode w = .andImm (destReg w) (baseReg w) (imm5 w) := by
  have ho : opcode w = .and := opcode_of_mask h (by decide)
  have hm : immediateModeBit w = true := bit_of_mask (by decide) h
  simp [decode, ho, hm]

theorem decode_notReg (h : w &&& 0xF000#16 = 0x9000#16) : decode w = .notReg (destReg w) (baseReg w) := by
  have ho : opcode w = .not := opcode_of_mask h (by decide)
  rw [decode, ho]

theorem decode_lea (h : w &&& 0xF000#16 = 0xE000#16) : decode w = .lea (destReg w) (pcOffset9 w) := by
  have ho : opcode w = .lea := opcode_of_mask h (by decide)
  rw [decode, ho]

theorem decode_ldr (h : w &&& 0xF000#16 = 0x6000#16) : decode w = .ldr (destReg w) (baseReg w) (offset6 w) := by
  have ho : opcode w = .ldr := opcode_of_mask h (by decide)
  rw [decode, ho]

theorem decode_jmp (h : w &&& 0xF000#16 = 0xC000#16) : decode w = .jmp (baseReg w) := by
  have ho : opcode w = .jmp := opcode_of_mask h (by decide)
  rw [decode, ho]

end

end Sys2Proof.Proofs.Decoding
end

section
/-! SUPPORT. The engine phase by phase (40_cycle.md R100, R112): no phase of an instruction, and no FETCH, reads or
writes the engine's bookkeeping. -/

namespace Sys2Proof.Machine

/-! ## The end of a pass, field by field -/

@[simp] theorem State.ended_pc (s : State) (r : Result) : (s.ended r).pc = s.pc := rfl
@[simp] theorem State.ended_memory (s : State) (r : Result) : (s.ended r).memory = s.memory := rfl
@[simp] theorem State.ended_phase (s : State) (r : Result) : (s.ended r).phase = .fetch := rfl
@[simp] theorem State.ended_result (s : State) (r : Result) : (s.ended r).result = some r := rfl
@[simp] theorem State.ended_stopRequest (s : State) (r : Result) : (s.ended r).stopRequest = s.stopRequest := rfl
@[simp] theorem State.ended_inBounds (s : State) (r : Result) (x : Word) : (s.ended r).inBounds x = s.inBounds x := rfl

/-! ## Bookkeeping: what no phase of an instruction and no FETCH reads or writes -/

/-- The phase register, the display offset, the stop request and the last result. -/
structure Book where
  phase : Phase
  startAddress : Word
  stopRequest : Option Nat
  result : Option Result

def State.book (s : State) : Book := ⟨s.phase, s.startAddress, s.stopRequest, s.result⟩

/-- A change of the bookkeeping alone. -/
def State.mapBook (f : Book → Book) (s : State) : State :=
  { s with
    phase := (f s.book).phase
    startAddress := (f s.book).startAddress
    stopRequest := (f s.book).stopRequest
    result := (f s.book).result }

theorem State.mapBook_book (s : State) : s.mapBook (fun _ => s.book) = s := rfl

/-- A phase's end with a change made to the state it leaves. -/
def PhaseEnd.map (g : State → State) : PhaseEnd → PhaseEnd
  | .goOn s => .goOn (g s)
  | .halt s => .halt (g s)
  | .raise f s => .raise f (g s)

/-- What the engine does in a phase, FETCH or a phase of the instruction with these phases. -/
def Micro.phase (m : Micro) : Phase → State → PhaseEnd
  | .fetch => fetchPhase
  | .decode => m.decode
  | .evalAddr => m.evalAddr
  | .fetchOp => m.fetchOp
  | .execute => m.execute
  | .store => m.store

theorem loadWord_mapBook (f : Book → Book) (ea : Word) (s : State) :
    loadWord ea (s.mapBook f) = (loadWord ea s).map (State.mapBook f) := by
  cases h : s.inBounds ea with
  | true => rw [loadWord_inBounds h, loadWord_inBounds (s := s.mapBook f) h]; rfl
  | false => rw [loadWord_outOfBounds h, loadWord_outOfBounds (s := s.mapBook f) h]; rfl

theorem storeWord_mapBook (f : Book → Book) (ea v : Word) (s : State) :
    storeWord ea v (s.mapBook f) = (storeWord ea v s).map (State.mapBook f) := by
  cases h : s.inBounds ea with
  | true => rw [storeWord_inBounds h, storeWord_inBounds (s := s.mapBook f) h]; rfl
  | false => rw [storeWord_outOfBounds h, storeWord_outOfBounds (s := s.mapBook f) h]; rfl

theorem commitBranch_mapBook (f : Book → Book) (s : State) :
    commitBranch (s.mapBook f) = (commitBranch s).map (State.mapBook f) := by
  rw [commitBranch_eq, commitBranch_eq]; rfl

theorem fetchPhase_mapBook (f : Book → Book) (s : State) :
    fetchPhase (s.mapBook f) = (fetchPhase s).map (State.mapBook f) := by
  cases h : s.inBounds s.pc with
  | true => rw [fetchPhase_inBounds h, fetchPhase_inBounds (s := s.mapBook f) h]; rfl
  | false => rw [fetchPhase_outOfBounds h, fetchPhase_outOfBounds (s := s.mapBook f) h]; rfl

/-- No phase reads or writes the bookkeeping. -/
theorem phase_mapBook (i : Instr) (p : Phase) (f : Book → Book) (s : State) :
    (microOf i).phase p (s.mapBook f) = ((microOf i).phase p s).map (State.mapBook f) := by
  cases p with
  | fetch => exact fetchPhase_mapBook f s
  | decode | evalAddr | fetchOp => cases i <;> rfl
  | execute =>
    cases i with
    | ld => exact loadWord_mapBook f _ s
    | ldr => exact loadWord_mapBook f _ s
    | _ => rfl
  | store =>
    cases i with
    | br => exact commitBranch_mapBook f s
    | st => exact storeWord_mapBook f _ _ s
    | str => exact storeWord_mapBook f _ _ s
    | _ => rfl

/-- A phase leaves the bookkeeping as it was. -/
theorem phase_book (i : Instr) (p : Phase) (s : State) :
    ((microOf i).phase p s).All fun t => t.book = s.book := by
  have h := phase_mapBook i p (fun _ => s.book) s
  rw [State.mapBook_book] at h
  rw [h]
  cases (microOf i).phase p s <;> rfl

/-- Each writer of the bookkeeping commutes with a phase. -/
theorem phase_setPhase (i : Instr) (p q : Phase) (s : State) :
    (microOf i).phase p (s.setPhase q) = ((microOf i).phase p s).map (·.setPhase q) :=
  phase_mapBook i p (fun b => { b with phase := q }) s

theorem phase_setStopRequest (i : Instr) (p : Phase) (r : Option Nat) (s : State) :
    (microOf i).phase p (s.setStopRequest r) = ((microOf i).phase p s).map (·.setStopRequest r) :=
  phase_mapBook i p (fun b => { b with stopRequest := r }) s

theorem phase_setResult (i : Instr) (p : Phase) (r : Option Result) (s : State) :
    (microOf i).phase p (s.setResult r) = ((microOf i).phase p s).map (·.setResult r) :=
  phase_mapBook i p (fun b => { b with result := r }) s

theorem phase_setStartAddress (i : Instr) (p : Phase) (d : Word) (s : State) :
    (microOf i).phase p (s.setStartAddress d) = ((microOf i).phase p s).map (·.setStartAddress d) :=
  phase_mapBook i p (fun b => { b with startAddress := d }) s

end Sys2Proof.Machine
end

section
/-! SUPPORT. What each instruction does from DECODE with no stop request (41_alu.md, 42_load_store.md, 43_control.md,
44_system.md): the five phases composed, for every operand and state. -/

namespace Sys2Proof.Proofs.Completion

open Sys2Proof Sys2Proof.Machine Sys2Proof.Proofs.Decoding

/-! ## A whole pass, phase by phase -/

/-- A phase that goes on does so whatever phase the register holds. -/
theorem phase_setPhase_goOn {i : Instr} {p : Phase} {s t : State} (h : (microOf i).phase p s = .goOn t) (q : Phase) :
    (microOf i).phase p (s.setPhase q) = .goOn (t.setPhase q) := by
  rw [phase_setPhase, h, PhaseEnd.map]

theorem phase_setPhase_raise {i : Instr} {p : Phase} {s t : State} {fault : Fault}
    (h : (microOf i).phase p s = .raise fault t) (q : Phase) :
    (microOf i).phase p (s.setPhase q) = .raise fault (t.setPhase q) := by
  rw [phase_setPhase, h, PhaseEnd.map]

section
variable {i : Instr} {s d e f x u : State} {fault : Fault} (h : s.ready)
  (hd : (microOf i).decode s = .goOn d) (he : (microOf i).evalAddr d = .goOn e)
  (hf : (microOf i).fetchOp e = .goOn f)
include h hd he hf

/-- A pass that completes, from what its phases write (R111): the phase register plays no part in between. -/
theorem exec_completes (hx : (microOf i).execute f = .goOn x) (hu : (microOf i).store x = .goOn u) :
    exec i s = .next (u.ended .stepped) := by
  rw [exec_eq_runPass]
  have hpass := runPass_completes h (microOf_keeps_clear i) hd (phase_setPhase_goOn (p := .evalAddr) he _)
    (phase_setPhase_goOn (p := .fetchOp) hf _) (phase_setPhase_goOn (p := .execute) hx _)
    (phase_setPhase_goOn (p := .store) hu .store)
  exact hpass

/-- A pass that a fault at EXECUTE ends. -/
theorem exec_raisesAtExecute (hx : (microOf i).execute f = .raise fault x) :
    exec i s = .next (x.ended (.faulted fault)) := by
  rw [exec_eq_runPass]
  have hpass := runPass_raisesAtExecute h (microOf_keeps_clear i) hd (phase_setPhase_goOn (p := .evalAddr) he _)
    (phase_setPhase_goOn (p := .fetchOp) hf _) (phase_setPhase_raise (p := .execute) hx .execute)
  exact hpass

/-- A pass that a fault at STORE ends. -/
theorem exec_raisesAtStore (hx : (microOf i).execute f = .goOn x) (hu : (microOf i).store x = .raise fault u) :
    exec i s = .next (u.ended (.faulted fault)) := by
  rw [exec_eq_runPass]
  have hpass := runPass_raisesAtStore h (microOf_keeps_clear i) hd (phase_setPhase_goOn (p := .evalAddr) he _)
    (phase_setPhase_goOn (p := .fetchOp) hf _) (phase_setPhase_goOn (p := .execute) hx _)
    (phase_setPhase_raise (p := .store) hu .store)
  exact hpass

end

/-! ## ALU instructions -/

/-- Settles O25: the mask fixes the opcode and IR[5]; the phases write A and B, R, and x[DR]. -/
theorem addRegisterMode : Obligations.AddRegisterMode :=
  ⟨fun _ => decode_addReg, fun _ _ _ _ h => exec_completes h rfl rfl rfl rfl rfl⟩

/-- Settles O26: the mask fixes the opcode and IR[5]; B is read from the SEXT that EVAL_ADDR staged. -/
theorem addImmediateMode : Obligations.AddImmediateMode :=
  ⟨fun _ => decode_addImm, fun _ _ _ _ h => exec_completes h rfl rfl rfl rfl rfl⟩

/-- Settles O27: as O25, with AND at EXECUTE. -/
theorem andRegisterMode : Obligations.AndRegisterMode :=
  ⟨fun _ => decode_andReg, fun _ _ _ _ h => exec_completes h rfl rfl rfl rfl rfl⟩

/-- Settles O28: as O26, with AND at EXECUTE. -/
theorem andImmediateMode : Obligations.AndImmediateMode :=
  ⟨fun _ => decode_andImm, fun _ _ _ _ h => exec_completes h rfl rfl rfl rfl rfl⟩

/-- Settles O29; the last clause is the two's complement of the complement. -/
theorem notComplements : Obligations.NotComplements :=
  ⟨fun _ => decode_notReg, fun _ _ _ h =>
    ⟨exec_completes h rfl rfl rfl rfl rfl, by rw [BitVec.neg_eq_not_add]; simp⟩⟩

/-- Settles O30: EXECUTE adds the staged offset to currentPC and reads no memory. -/
theorem leaGivesTheAddress : Obligations.LeaGivesTheAddress :=
  ⟨fun _ => decode_lea, fun _ _ _ h => exec_completes h rfl rfl rfl rfl rfl⟩

/-! ## Loads and stores -/

/-- Settles O31: the load at EXECUTE finds the address in bounds. -/
theorem ldLoadsPcRelative : Obligations.LdLoadsPcRelative := by
  rintro dr off ea v s h rfl hin rfl
  exact exec_completes h rfl rfl rfl (loadWord_inBounds hin) rfl

/-- Settles O32: the load at EXECUTE, by whether the address is in bounds. -/
theorem ldrLoadsBaseOffset : Obligations.LdrLoadsBaseOffset := by
  refine ⟨fun _ => decode_ldr, ?_⟩
  rintro dr base off ea v s h rfl
  constructor
  · rintro hin rfl
    exact exec_completes h rfl rfl rfl (loadWord_inBounds hin) rfl
  · intro hout
    exact exec_raisesAtExecute h rfl rfl rfl (loadWord_outOfBounds hout)

/-- Settles O33: the store at STORE finds the address in bounds. -/
theorem stStoresPcRelative : Obligations.StStoresPcRelative := by
  rintro sr off ea s h rfl hin
  exact exec_completes h rfl rfl rfl rfl (storeWord_inBounds hin)

/-- Settles O34: the store at STORE finds the address in bounds. -/
theorem strStoresBaseOffset : Obligations.StrStoresBaseOffset := by
  rintro sr base off ea s h rfl hin
  exact exec_completes h rfl rfl rfl rfl (storeWord_inBounds hin)

/-- Settles O35: LD raises at EXECUTE, ST and STR at STORE. -/
theorem dataFaultKeepsEarlierWritesOnly : Obligations.DataFaultKeepsEarlierWritesOnly := by
  refine ⟨?_, ?_, ?_⟩
  · rintro dr off ea s h rfl hout
    exact exec_raisesAtExecute h rfl rfl rfl (loadWord_outOfBounds hout)
  · rintro sr off ea s h rfl hout
    exact exec_raisesAtStore h rfl rfl rfl rfl (storeWord_outOfBounds hout)
  · rintro sr base off ea s h rfl hout
    exact exec_raisesAtStore h rfl rfl rfl rfl (storeWord_outOfBounds hout)

/-! ## Control transfers -/

/-- The condition of R180 as a proposition. -/
theorem anyRequested_iff (req flags : CondFlags) :
    req.anyRequested flags = true ↔
      req.n = true ∧ flags.n = true ∨ req.z = true ∧ flags.z = true ∨ req.p = true ∧ flags.p = true := by
  simp [CondFlags.anyRequested, or_assoc]

/-- Settles O38: STORE writes PC once, with R if the condition holds. -/
theorem branchTestsRequestedFlags : Obligations.BranchTestsRequestedFlags := by
  intro n z p off s h
  simp only [← anyRequested_iff ⟨n, z, p⟩ s.flags]
  exact exec_completes h rfl rfl rfl rfl (commitBranch_eq _)

/-- Settles O39: R passes the base from A to PC. -/
theorem jumpGoesToTheRegister : Obligations.JumpGoesToTheRegister :=
  ⟨fun _ => decode_jmp, fun _ _ h => exec_completes h rfl rfl rfl rfl rfl⟩

/-- Settles O40: EVAL_ADDR links, EXECUTE writes PC, and STORE has no action. -/
theorem jsrLinksAndCalls : Obligations.JsrLinksAndCalls :=
  fun _ _ h => exec_completes h rfl rfl rfl rfl rfl

/-- Settles O41: the base is read from the registers the link write leaves. -/
theorem jsrrReadsItsBaseAfterTheLink : Obligations.JsrrReadsItsBaseAfterTheLink := by
  intro base s h
  rw [← State.setReg_reg s 7 (s.currentPC + 1#16) base]
  exact exec_completes h rfl rfl rfl rfl rfl

/-! ## HALT and the illegal opcodes -/

/-- The four illegal opcodes have the same phases. -/
theorem microOf_illegal {i : Instr} (hi : i.illegal = true) : microOf i = microIllegal := by
  cases i with
  | rtiIllegal | ldiIllegal | stiIllegal | reservedIllegal => rfl
  | _ => cases hi

/-- Whatever phase finds an illegal opcode ends the pass there. -/
theorem exec_illegal {i : Instr} (hi : i.illegal = true) (s : State) :
    exec i s = .next (s.ended (.faulted (.illegalOpcode s.ir))) := by
  rw [exec_eq_runPass, microOf_illegal hi, runPass]
  cases s.phase <;> rfl

/-- Whatever phase finds HALT ends the pass there. -/
theorem exec_halt (s : State) : exec .halt s = .next (s.ended .halted) := by
  rw [exec_eq_runPass, runPass]
  cases s.phase <;> rfl

/-- Settles O44: DECODE finds HALT. -/
theorem haltReturnsToTheHost : Obligations.HaltReturnsToTheHost := fun s _ => exec_halt s

/-- Settles O45: DECODE finds the illegal opcode. -/
theorem illegalOpcodesRaise : Obligations.IllegalOpcodesRaise := by
  intro i hi s _
  refine exec_illegal ?_ s
  simp only [List.mem_cons, List.not_mem_nil, or_false] at hi
  rcases hi with rfl | rfl | rfl | rfl <;> rfl

end Sys2Proof.Proofs.Completion
end

section
/-! SUPPORT. What an instruction may write (10_state.md R20 to R31, 40_cycle.md R107), once for all instructions: every
phase of an instruction stays within the table of its row, from any phase and with any stop request; then the statements
that read single columns of that table. -/

namespace Sys2Proof.Proofs.Frames

open Sys2Proof Sys2Proof.Machine

/-- `t` differs from `s` in nothing but what the instruction writes, and in the engine's bookkeeping. -/
structure Frame (i : Instr) (s t : State) : Prop where
  ir : t.ir = s.ir
  currentPC : t.currentPC = s.currentPC
  startAddress : t.startAddress = s.startAddress
  config : t.config = s.config
  flags : t.flags = s.flags
  reg : ∀ j, i.destination ≠ some j → t.reg j = s.reg j
  pc : i.transfersControl = false → t.pc = s.pc
  mar : i.loads = false → i.stores = false → t.mar = s.mar
  mdr : i.loads = false → i.stores = false → t.mdr = s.mdr
  sext : i.writesSext = false → t.sext = s.sext
  a : i.writesA = false → t.a = s.a
  b : i.writesB = false → t.b = s.b
  r : i.writesR = false → t.r = s.r
  req : i.branches = false → t.req = s.req
  memory : i.stores = false → t.memory = s.memory

namespace Frame

theorem refl (i : Instr) (s : State) : Frame i s s := by
  constructor <;> intros <;> rfl

/-! ### One rule per writer: the instruction must be one that writes the field -/

section
variable {i : Instr} {s t : State} (h : Frame i s t)
include h

theorem setReg {j : Reg} (hi : i.destination = some j) (v : Word) : Frame i s (t.setReg j v) :=
  { h with
    reg := fun k hk => (State.setReg_reg_other t j v fun e : k = j => hk (e ▸ hi)).trans (h.reg k hk) }

theorem setPc (hi : i.transfersControl = true) (v : Word) : Frame i s (t.setPc v) :=
  { h with pc := fun hn => absurd hi (by simp [hn]) }

theorem setMar (hi : i.loads = true ∨ i.stores = true) (v : Word) : Frame i s (t.setMar v) :=
  { h with mar := fun hl hs => absurd hi (by simp [hl, hs]) }

theorem setMdr (hi : i.loads = true ∨ i.stores = true) (v : Word) : Frame i s (t.setMdr v) :=
  { h with mdr := fun hl hs => absurd hi (by simp [hl, hs]) }

theorem setSext (hi : i.writesSext = true) (v : Word) : Frame i s (t.setSext v) :=
  { h with sext := fun hn => absurd hi (by simp [hn]) }

theorem setA (hi : i.writesA = true) (v : Word) : Frame i s (t.setA v) :=
  { h with a := fun hn => absurd hi (by simp [hn]) }

theorem setB (hi : i.writesB = true) (v : Word) : Frame i s (t.setB v) :=
  { h with b := fun hn => absurd hi (by simp [hn]) }

theorem setR (hi : i.writesR = true) (v : Word) : Frame i s (t.setR v) :=
  { h with r := fun hn => absurd hi (by simp [hn]) }

theorem setReq (hi : i.branches = true) (v : CondFlags) : Frame i s (t.setReq v) :=
  { h with req := fun hn => absurd hi (by simp [hn]) }

theorem setMemory (hi : i.stores = true) (m : Memory) : Frame i s (t.setMemory m) :=
  { h with memory := fun hn => absurd hi (by simp [hn]) }

/-! ### The shared load and store, and the commit of a branch -/

theorem commitBranch (hi : i.transfersControl = true) : (Machine.commitBranch t).All (Frame i s) := by
  rw [commitBranch_eq]
  exact h.setPc hi _

theorem loadWord (hl : i.loads = true) (hr : i.writesR = true) (ea : Word) :
    (Machine.loadWord ea t).All (Frame i s) :=
  loadWord_all (h.setMar (.inl hl) ea) fun v => ((h.setMar (.inl hl) ea).setMdr (.inl hl) v).setR hr v

theorem storeWord (hi : i.stores = true) (ea v : Word) : (Machine.storeWord ea v t).All (Frame i s) :=
  storeWord_all (h.setMar (.inr hi) ea) fun _ => ((h.setMar (.inr hi) ea).setMemory hi _).setMdr (.inr hi) v

end

/-- The engine's bookkeeping is no instruction's. -/
theorem steady (i : Instr) (s : State) : Steady (Frame i s) :=
  ⟨fun _ _ h => { h with }, fun _ _ h => { h with }, fun _ _ h => { h with }⟩

/-- An instruction that ends its pass in every phase writes nothing. -/
theorem keeps_of_writes_nothing {i : Instr} {s : State} (h : microOf i = microIllegal ∨ microOf i = microHalt) :
    (microOf i).Keeps (Frame i s) := by
  rcases h with h | h <;> rw [h] <;>
    exact ⟨fun _ h => h, fun _ h => h, fun _ h => h, fun _ h => h, fun _ h => h⟩

/-- Every phase of every instruction stays within its frame, by the phases' own definitions. -/
theorem keeps (i : Instr) (s : State) : (microOf i).Keeps (Frame i s) := by
  cases i with
  | br => exact ⟨fun _ h => h, fun _ h => (h.setReq rfl _).setSext rfl _, fun _ h => (h.setA rfl _).setB rfl _,
      fun _ h => h.setR rfl _, fun _ h => h.commitBranch rfl⟩
  | addReg | andReg => exact ⟨fun _ h => h, fun _ h => h, fun _ h => (h.setA rfl _).setB rfl _,
      fun _ h => h.setR rfl _, fun _ h => h.setReg rfl _⟩
  | addImm | andImm => exact ⟨fun _ h => h, fun _ h => h.setSext rfl _, fun _ h => (h.setA rfl _).setB rfl _,
      fun _ h => h.setR rfl _, fun _ h => h.setReg rfl _⟩
  | notReg => exact ⟨fun _ h => h, fun _ h => h, fun _ h => h.setA rfl _, fun _ h => h.setR rfl _,
      fun _ h => h.setReg rfl _⟩
  | ld => exact ⟨fun _ h => h, fun _ h => h.setSext rfl _, fun _ h => h.setA rfl _, fun _ h => h.loadWord rfl rfl _,
      fun _ h => h.setReg rfl _⟩
  | ldr => exact ⟨fun _ h => h, fun _ h => h.setSext rfl _, fun _ h => (h.setA rfl _).setB rfl _,
      fun _ h => h.loadWord rfl rfl _, fun _ h => h.setReg rfl _⟩
  | lea => exact ⟨fun _ h => h, fun _ h => h.setSext rfl _, fun _ h => h.setA rfl _, fun _ h => h.setR rfl _,
      fun _ h => h.setReg rfl _⟩
  | st => exact ⟨fun _ h => h, fun _ h => h.setSext rfl _, fun _ h => h.setA rfl _, fun _ h => h.setR rfl _,
      fun _ h => h.storeWord rfl _ _⟩
  | str => exact ⟨fun _ h => h, fun _ h => h.setSext rfl _, fun _ h => (h.setA rfl _).setB rfl _,
      fun _ h => h.setR rfl _, fun _ h => h.storeWord rfl _ _⟩
  | jsr => exact ⟨fun _ h => h, fun _ h => (h.setReg rfl _).setSext rfl _, fun _ h => (h.setA rfl _).setB rfl _,
      fun _ h => h.setPc rfl _, fun _ h => h⟩
  | jsrr => exact ⟨fun _ h => h, fun _ h => h.setReg rfl _, fun _ h => h.setB rfl _, fun _ h => h.setPc rfl _,
      fun _ h => h⟩
  | jmp => exact ⟨fun _ h => h, fun _ h => h, fun _ h => h.setA rfl _, fun _ h => h.setR rfl _,
      fun _ h => h.setPc rfl _⟩
  | rtiIllegal | ldiIllegal | stiIllegal | reservedIllegal => exact keeps_of_writes_nothing (.inl rfl)
  | halt => exact keeps_of_writes_nothing (.inr rfl)

/-- The same for one phase of the engine after FETCH. -/
theorem phase (i : Instr) {p : Phase} (hp : p ≠ .fetch) (s : State) : ((microOf i).phase p s).All (Frame i s) := by
  cases p with
  | fetch => exact absurd rfl hp
  | decode => exact (keeps i s).decode s (refl i s)
  | evalAddr => exact (keeps i s).evalAddr s (refl i s)
  | fetchOp => exact (keeps i s).fetchOp s (refl i s)
  | execute => exact (keeps i s).execute s (refl i s)
  | store => exact (keeps i s).store s (refl i s)

end Frame

/-- What `exec` may change, from every state. -/
theorem exec_frame {i : Instr} {s t : State} (h : exec i s = .next t) : Frame i s t :=
  exec_keeps (Frame.steady i s) (Frame.keeps i s) (Frame.refl i s) h

/-- Settles O19: the flags are in no instruction's row. -/
theorem noInstructionWritesTheFlags : Obligations.NoInstructionWritesTheFlags :=
  fun _ _ _ h => (exec_frame h).flags

/-- Settles O21, by the column of PC. -/
theorem onlyControlTransfersWritePc : Obligations.OnlyControlTransfersWritePc :=
  fun _ _ _ h => (exec_frame h).pc

/-- Settles O22, by the column of destinations. -/
theorem onlyTheDestinationRegisterChanges : Obligations.OnlyTheDestinationRegisterChanges :=
  fun _ _ _ j h => (exec_frame h).reg j

/-- Settles O23, by the columns of the latches. -/
theorem unwrittenLatchesKeepTheirValue : Obligations.UnwrittenLatchesKeepTheirValue := by
  intro i s t h
  have hf := exec_frame h
  exact ⟨hf.ir, hf.currentPC, hf.startAddress, hf.config, fun hl hs => ⟨hf.mar hl hs, hf.mdr hl hs⟩, hf.sext,
    hf.a, hf.b, hf.r, hf.req⟩

/-- Settles O46: the six instructions have destination DR, and no row of theirs has PC, the requested flags, MAR, MDR or
memory. -/
theorem registerInstructionsFrame : Obligations.RegisterInstructionsFrame := by
  intro dr sr1 sr2 imm s t i hi h
  have hf := exec_frame h
  obtain ⟨hdest, hpc, hload, hstore, hbr⟩ : i.destination = some dr ∧ i.transfersControl = false ∧
      i.loads = false ∧ i.stores = false ∧ i.branches = false := by
    simp only [List.mem_cons, List.not_mem_nil, or_false] at hi
    rcases hi with rfl | rfl | rfl | rfl | rfl | rfl <;> exact ⟨rfl, rfl, rfl, rfl, rfl⟩
  refine ⟨fun j hj => hf.reg j ?_, hf.pc hpc, hf.flags, hf.req hbr, hf.mar hload hstore, hf.mdr hload hstore, hf.ir,
    hf.currentPC, hf.startAddress, fun x => by rw [hf.memory hstore]⟩
  rw [hdest]
  exact fun e => hj (Option.some.inj e).symm

/-- Settles O47: the two loads have destination DR, and no row of theirs has PC, the requested flags or memory. -/
theorem loadsFrame : Obligations.LoadsFrame := by
  intro dr base off s t i hi h
  have hf := exec_frame h
  obtain ⟨hdest, hpc, hstore, hbr⟩ : i.destination = some dr ∧ i.transfersControl = false ∧ i.stores = false ∧
      i.branches = false := by
    simp only [List.mem_cons, List.not_mem_nil, or_false] at hi
    rcases hi with rfl | rfl <;> exact ⟨rfl, rfl, rfl, rfl⟩
  refine ⟨fun j hj => hf.reg j ?_, hf.pc hpc, hf.flags, hf.req hbr, hf.ir, hf.currentPC, hf.startAddress,
    fun x => by rw [hf.memory hstore]⟩
  rw [hdest]
  exact fun e => hj (Option.some.inj e).symm

/-- Control transfers neither load nor store, and only the calls have a destination, R7. -/
theorem transfer_row {i : Instr} (h : i.transfersControl = true) :
    i.loads = false ∧ i.stores = false ∧ (i.call = true → i.writesR = false) ∧
      ∀ j, (i.call = true → j ≠ 7) → i.destination ≠ some j := by
  cases i <;> simp [Instr.transfersControl] at h <;>
    simp [Instr.loads, Instr.stores, Instr.call, Instr.writesR, Instr.destination, Config.linkRegister, eq_comm]

/-- Settles O49: only BR has the requested flags in its row, only the calls a register. -/
theorem controlTransfersFrame : Obligations.ControlTransfersFrame := by
  intro i s t hi h
  have hf := exec_frame h
  obtain ⟨hload, hstore, hr, hdest⟩ := transfer_row hi
  exact ⟨fun j hj => hf.reg j (hdest j hj), hf.flags, hf.mar hload hstore, hf.mdr hload hstore, hf.ir, hf.currentPC,
    hf.startAddress, hf.req, fun hc => hf.r (hr hc), fun x => by rw [hf.memory hstore]⟩

/-! ## Properties that frames keep -/

theorem all_mono {P Q : State → Prop} (hPQ : ∀ s, P s → Q s) {e : PhaseEnd} (h : e.All P) : e.All Q := by
  cases e <;> exact hPQ _ h

/-- A property that survives an instruction's frame is kept by its phases. -/
theorem keeps_of_frame {P : State → Prop} {i : Instr} (hP : ∀ s t, Frame i s t → P s → P t) :
    (microOf i).Keeps P where
  decode s h := all_mono (fun t ht => hP s t ht h) (Frame.phase i (p := .decode) (by decide) s)
  evalAddr s h := all_mono (fun t ht => hP s t ht h) (Frame.phase i (p := .evalAddr) (by decide) s)
  fetchOp s h := all_mono (fun t ht => hP s t ht h) (Frame.phase i (p := .fetchOp) (by decide) s)
  execute s h := all_mono (fun t ht => hP s t ht h) (Frame.phase i (p := .execute) (by decide) s)
  store s h := all_mono (fun t ht => hP s t ht h) (Frame.phase i (p := .store) (by decide) s)

theorem fetchPhase_all {P : State → Prop} {s : State} (h : P s) (hf : ∀ w, P (s.fetched w)) :
    (fetchPhase s).All P := by
  cases hin : s.inBounds s.pc with
  | true => rw [fetchPhase_inBounds hin]; exact hf _
  | false => rw [fetchPhase_outOfBounds hin]; exact h

/-- What FETCH and every phase keep, a given next state of a step has. -/
theorem step_keeps {P : State → Prop} (hP : Steady P) (hf : ∀ s w, P s → P (s.fetched w))
    (hm : ∀ i, (microOf i).Keeps P) {s t : State} (h : P s) (e : step s = .next t) : P t := by
  obtain ⟨u, hu, hp⟩ := step_reaches hP (fun s h => fetchPhase_all h fun w => hf s w h) hm h
  rw [e] at hu
  cases hu
  exact hp

/-! ## Clear flags (R24) -/

/-- A step keeps the flags: FETCH does not write them, and no instruction does. -/
theorem step_flags {s t : State} (h : step s = .next t) : t.flags = s.flags :=
  step_keeps (P := fun u => u.flags = s.flags) ⟨fun _ _ h => h, fun _ _ h => h, fun _ _ h => h⟩ (fun _ _ h => h)
    (fun _ => keeps_of_frame fun _ _ hf h => hf.flags.trans h) rfl h

/-- With all flags clear no requested flag is set. -/
theorem branchTaken_of_clear {s : State} (h : s.flags = ⟨false, false, false⟩) : s.branchTaken = false := by
  simp [State.branchTaken, CondFlags.anyRequested, h]

/-- Flags clear and PC as it was. -/
def ClearAt (pc : Word) (s : State) : Prop := s.flags = ⟨false, false, false⟩ ∧ s.pc = pc

theorem br_keeps_clearAt (n z p : Bool) (off pc : Word) : (microOf (.br n z p off)).Keeps (ClearAt pc) where
  decode _ h := h
  evalAddr _ h := h
  fetchOp _ h := h
  execute _ h := h
  store s h := by
    show (commitBranch s).All (ClearAt pc)
    rw [commitBranch_eq, branchTaken_of_clear h.1]
    exact h

/-- Settles O20: a step keeps the flags, and a BR's one write of PC needs a flag. -/
theorem noBranchIsTakenWithClearFlags : Obligations.NoBranchIsTakenWithClearFlags := by
  intro s t hclear
  refine ⟨fun h => (step_flags h).trans hclear, fun n z p off h => ?_⟩
  have hsteady : Steady (ClearAt s.pc) := ⟨fun _ _ h => h, fun _ _ h => h, fun _ _ h => h⟩
  exact (exec_keeps hsteady (br_keeps_clearAt n z p off s.pc) (s := s) ⟨hclear, rfl⟩ h).2

/-! ## Legal states -/

/-- Memory is in its canonical form and within the machine's own parameters. -/
def LegalMemory (c : Config) (s : State) : Prop :=
  s.config = c ∧ s.memory.wf = true ∧ s.memory.within c.memSize = true

/-- A store's bounds check is the bound on the cells (R52). -/
theorem storeWord_keeps_legal {c : Config} {s : State} (h : LegalMemory c s) (ea v : Word) :
    (storeWord ea v s).All (LegalMemory c) := by
  obtain ⟨hc, hwf, hwithin⟩ := h
  refine storeWord_all ⟨hc, hwf, hwithin⟩ fun hin =>
    ⟨hc, Memory.wf_write hwf _ _, Memory.within_write hwithin ?_ _⟩
  rw [← hc]
  exact of_decide_eq_true hin

theorem keeps_legal (c : Config) (i : Instr) : (microOf i).Keeps (LegalMemory c) := by
  cases hi : i.stores with
  | false =>
    refine keeps_of_frame fun s t hf h => ?_
    rwa [LegalMemory, hf.memory hi, hf.config]
  | true =>
    cases i <;> simp only [Instr.stores, Bool.false_eq_true] at hi
    case st | str =>
      exact ⟨fun _ h => h, fun _ h => h, fun _ h => h, fun _ h => h, fun _ h => storeWord_keeps_legal h _ _⟩

/-- Settles O50: only a store writes memory, and it checks the bound. -/
theorem stepKeepsTheStateLegal : Obligations.StepKeepsTheStateLegal := by
  intro s t hs h
  have hsteady : Steady (LegalMemory s.config) := ⟨fun _ _ h => h, fun _ _ h => h, fun _ _ h => h⟩
  obtain ⟨hc, hwf, hwithin⟩ :=
    step_keeps hsteady (fun _ _ h => h) (keeps_legal s.config) ⟨rfl, hs.wf, hs.within⟩ h
  exact ⟨⟨hc ▸ hs.config, hwf, hc ▸ hwithin⟩, hc⟩

end Sys2Proof.Proofs.Frames
end

section
/-! SUPPORT. What a cycle can do, said once (40_cycle.md R100, R108 to R113): `Pass` lists how a pass ends and how it
goes on, and the cycle answers exactly the state `Pass` gives. The decoder is a parameter: `decode` gives the machine's
cycle, and a constant decoder gives `exec` of one instruction. -/

namespace Sys2Proof.Machine

open Sys2Proof.Proofs.Frames

/-- The phase that follows in a pass (R100). -/
def Phase.next : Phase → Phase
  | .fetch => .decode
  | .decode => .evalAddr
  | .evalAddr => .fetchOp
  | .fetchOp => .execute
  | .execute => .store
  | .store => .fetch

theorem Phase.checksLeft_next {p : Phase} (h : p ≠ .store) : p.checksLeft = p.next.checksLeft + 1 := by
  cases p with
  | store => exact absurd rfl h
  | _ => rfl

theorem Phase.next_ne_fetch {p : Phase} (h : p ≠ .store) : p.next ≠ .fetch := by
  cases p with
  | store => exact absurd rfl h
  | _ => nofun

/-- The engine's cycle with any decoder in place of `decode`. -/
def cycleOf (d : Word → Instr) (s : State) : Answer :=
  if s.phase = .fetch then afterPhase .decode (fun t => exec (d t.ir) t) (fetchPhase s) else exec (d s.ir) s

/-- What the engine does in the phase the phase register holds. -/
def enginePhase (d : Word → Instr) (s : State) : PhaseEnd := (microOf (d s.ir)).phase s.phase s

theorem cycle_eq_cycleOf (s : State) : cycle s = cycleOf decode s := by
  by_cases h : s.phase = .fetch
  · rw [cycle_fetch h, cycleOf, if_pos h]
    rfl
  · rw [cycle_resumed h, cycleOf, if_neg h]
    rfl

theorem exec_eq_cycleOf (i : Instr) {s : State} (h : s.phase ≠ .fetch) : exec i s = cycleOf (fun _ => i) s := by
  rw [cycleOf, if_neg h]

/-! ## One phase of the cycle -/

variable {d : Word → Instr} {s t x : State}

theorem cycleOf_resumed (h : s.phase ≠ .fetch) : cycleOf d s = runPass (microOf (d s.ir)) s := by
  rw [cycleOf, if_neg h, exec_eq_runPass]

/-- The rest of a pass is only ever entered at the next phase and with the same IR. -/
theorem afterPhase_congr {next : Phase} {rest rest' : State → Answer} {e : PhaseEnd} {w : Word}
    (he : e.All fun t => t.ir = w) (h : ∀ t, t.phase = next → t.ir = w → rest t = rest' t) :
    afterPhase next rest e = afterPhase next rest' e := by
  cases e with
  | goOn t =>
    show boundary next rest t = boundary next rest' t
    unfold boundary
    split
    · exact h _ rfl he
    · rfl
    · exact h _ rfl he
  | halt t => rfl
  | raise f t => rfl

theorem afterPhase_congr_rest {next : Phase} {rest rest' : State → Answer} (e : PhaseEnd)
    (h : ∀ t, t.phase = next → rest t = rest' t) : afterPhase next rest e = afterPhase next rest' e := by
  obtain ⟨w, hw⟩ : ∃ w, e.All fun t => t.ir = w := by
    cases e <;> exact ⟨_, rfl⟩
  exact afterPhase_congr hw fun t ht _ => h t ht

/-- No phase after FETCH writes IR, so the pass goes on with the same instruction. -/
theorem enginePhase_ir (h : s.phase ≠ .fetch) : (enginePhase d s).All fun t => t.ir = s.ir :=
  all_mono (fun _ hf => hf.ir) (Frame.phase (d s.ir) h s)

/-- The rest of an instruction's pass, one phase unfolded. -/
theorem runPass_phase (m : Micro) (hf : s.phase ≠ .fetch) (h : s.phase ≠ .store) :
    runPass m s = afterPhase s.phase.next (runPass m) (m.phase s.phase s) := by
  rw [runPass]
  cases hp : s.phase with
  | fetch => exact absurd hp hf
  | decode => exact afterPhase_congr_rest _ fun t ht => by rw [runPass, ht]
  | evalAddr => exact afterPhase_congr_rest _ fun t ht => by rw [runPass, ht]
  | fetchOp => exact afterPhase_congr_rest _ fun t ht => by rw [runPass, ht]
  | execute => exact afterPhase_congr_rest _ fun t ht => by rw [runPass, ht]
  | store => exact absurd hp h

/-- STORE is the last phase of a cycle. -/
theorem cycleOf_store (h : s.phase = .store) : cycleOf d s = afterStore (enginePhase d s) := by
  rw [cycleOf_resumed (by rw [h]; decide), enginePhase]
  simp only [runPass, h]
  rfl

/-- Every other phase is followed by the check and the cycle from the next phase. -/
theorem cycleOf_phase (h : s.phase ≠ .store) :
    cycleOf d s = afterPhase s.phase.next (cycleOf d) (enginePhase d s) := by
  by_cases hf : s.phase = .fetch
  · rw [cycleOf, if_pos hf, enginePhase, hf]
    exact afterPhase_congr_rest _ fun t ht => by rw [cycleOf, if_neg (by rw [ht]; decide)]
  · have hrest : ∀ t, t.phase = s.phase.next → t.ir = s.ir → runPass (microOf (d s.ir)) t = cycleOf d t := by
      intro t ht hir
      rw [cycleOf_resumed (by rw [ht]; exact Phase.next_ne_fetch h), hir]
    rw [← afterPhase_congr (enginePhase_ir hf) hrest, cycleOf_resumed hf, enginePhase]
    exact runPass_phase _ hf h

/-! ## The ways a pass goes on and ends -/

theorem State.setPhase_self {p : Phase} (h : s.phase = p) : s.setPhase p = s := by
  subst h
  rfl

theorem State.setStopRequest_self {r : Option Nat} (h : s.stopRequest = r) : s.setStopRequest r = s := by
  subst h
  rfl

/-- The state the next phase starts from: the phase register moved on, and the stop request one check nearer. -/
def State.advanced (x : State) (next : Phase) : State :=
  (x.setPhase next).setStopRequest (x.stopRequest.map Nat.pred)

/-- The state a stop leaves: the next phase saved, the request cleared (R112). -/
def State.stoppedAt (x : State) (next : Phase) : State :=
  ((x.setPhase next).setStopRequest none).setResult (some .stopped)

/-- The check between two phases as one test of the request. -/
theorem boundary_eq (next : Phase) (rest : State → Answer) (x : State) :
    boundary next rest x =
      if x.stopRequest = some 0 then .next (x.stoppedAt next) else rest (x.advanced next) := by
  unfold boundary
  split
  · next h =>
    have hself : x.advanced next = x.setPhase next := by
      rw [State.advanced, h]
      exact State.setStopRequest_self h
    rw [if_neg (by simp [h]), hself]
  · next h => rw [if_pos h]; rfl
  · next k h => rw [if_neg (by simp [h]), State.advanced, h]; rfl

/-- The rest of a pass from `s` ends in `t` (R106, R108, R109, R112). -/
inductive Pass (d : Word → Instr) : State → State → Prop where
  /-- The phase finds HALT. -/
  | halts {s x : State} (h : enginePhase d s = .halt x) : Pass d s (x.ended .halted)
  /-- The phase raises a fault. -/
  | faults {s x : State} {f : Fault} (h : enginePhase d s = .raise f x) : Pass d s (x.ended (.faulted f))
  /-- STORE is done. -/
  | completes {s x : State} (hp : s.phase = .store) (h : enginePhase d s = .goOn x) : Pass d s (x.ended .stepped)
  /-- The check after the phase finds the stop request set. -/
  | stops {s x : State} (hp : s.phase ≠ .store) (h : enginePhase d s = .goOn x) (hr : x.stopRequest = some 0) :
      Pass d s (x.stoppedAt s.phase.next)
  /-- The check finds it clear, and the rest of the pass follows. -/
  | goesOn {s x t : State} (hp : s.phase ≠ .store) (h : enginePhase d s = .goOn x) (hr : x.stopRequest ≠ some 0)
      (rest : Pass d (x.advanced s.phase.next) t) : Pass d s t

/-- Induction along a pass: every phase is closer to STORE than the one before. -/
theorem phase_induction {C : State → Prop} (last : ∀ s, s.phase = .store → C s)
    (earlier : ∀ s, s.phase ≠ .store → (∀ t, t.phase = s.phase.next → C t) → C s) (s : State) : C s := by
  by_cases h : s.phase = .store
  · exact last s h
  · exact earlier s h fun t ht => phase_induction last earlier t
termination_by s.phase.checksLeft
decreasing_by rw [ht, Phase.checksLeft_next h]; exact Nat.lt_succ_self _

/-- A pass always ends. -/
theorem exists_pass (d : Word → Instr) (s : State) : ∃ t, Pass d s t := by
  refine phase_induction (C := fun s => ∃ t, Pass d s t) (fun s h => ?_) (fun s h ih => ?_) s
  · cases he : enginePhase d s with
    | goOn x => exact ⟨_, .completes h he⟩
    | halt x => exact ⟨_, .halts he⟩
    | raise f x => exact ⟨_, .faults he⟩
  · cases he : enginePhase d s with
    | goOn x =>
      by_cases hr : x.stopRequest = some 0
      · exact ⟨_, .stops h he hr⟩
      · obtain ⟨t, ht⟩ := ih (x.advanced s.phase.next) rfl
        exact ⟨t, .goesOn h he hr ht⟩
    | halt x => exact ⟨_, .halts he⟩
    | raise f x => exact ⟨_, .faults he⟩

/-- A phase that ends the pass does so in STORE and before. -/
theorem cycleOf_of_end {e : PhaseEnd} {answer : Answer} (h : enginePhase d s = e)
    (hphase : ∀ next rest, afterPhase next rest e = answer) (hstore : afterStore e = answer) :
    cycleOf d s = answer := by
  by_cases hp : s.phase = .store
  · rw [cycleOf_store hp, h, hstore]
  · rw [cycleOf_phase hp, h, hphase]

theorem Pass.cycleOf_eq (h : Pass d s t) : cycleOf d s = .next t := by
  induction h with
  | halts h => exact cycleOf_of_end h (fun _ _ => rfl) rfl
  | faults h => exact cycleOf_of_end h (fun _ _ => rfl) rfl
  | completes hp h => rw [cycleOf_store hp, h]; rfl
  | stops hp h hr => rw [cycleOf_phase hp, h, afterPhase, boundary_eq, if_pos hr]
  | goesOn hp h hr _ ih => rw [cycleOf_phase hp, h, afterPhase, boundary_eq, if_neg hr, ih]

/-- The cycle answers exactly the state its pass ends in. -/
theorem cycleOf_eq_next_iff : cycleOf d s = .next t ↔ Pass d s t := by
  refine ⟨fun h => ?_, Pass.cycleOf_eq⟩
  obtain ⟨u, hu⟩ := exists_pass d s
  rw [hu.cycleOf_eq] at h
  cases h
  exact hu

/-- A pass ends in one state only. -/
theorem Pass.unique {u : State} (ht : Pass d s t) (hu : Pass d s u) : t = u := by
  have h := ht.cycleOf_eq
  rw [hu.cycleOf_eq] at h
  cases h
  rfl

/-- A step is a pass, returned with the stop request cleared (R111, R218). -/
theorem step_eq_next_iff : step s = .next t ↔ ∃ u, Pass decode s u ∧ t = u.setStopRequest none := by
  obtain ⟨u, hu⟩ := exists_pass decode s
  have hstep : step s = .next (u.setStopRequest none) := by
    rw [step, cycle_eq_cycleOf, hu.cycleOf_eq, returnToHost_next]
  rw [hstep]
  constructor
  · rintro ⟨⟩
    exact ⟨u, hu, rfl⟩
  · rintro ⟨v, hv, rfl⟩
    rw [hu.unique hv]

/-- From DECODE on, `exec` is a pass with a constant decoder. -/
theorem exec_eq_next_iff {i : Instr} (h : s.phase ≠ .fetch) : exec i s = .next t ↔ Pass (fun _ => i) s t := by
  rw [exec_eq_cycleOf i h, cycleOf_eq_next_iff]

end Sys2Proof.Machine
end

section
/-! SUPPORT. Stops and returns (40_cycle.md section 3, 60_exceptions.md section 2), from the ways a pass goes on and
ends: every step returns a result; a stop saves the next phase and loses nothing; a request that finds no check left
changes nothing but the request. -/

namespace Sys2Proof.Proofs.Stops

open Sys2Proof Sys2Proof.Machine Sys2Proof.Proofs.Frames

variable {d : Word → Instr} {s t u x : State}

/-! ## Returns -/

/-- A pass ends with a result, at FETCH unless it was stopped. -/
theorem pass_returns (h : Pass d s t) :
    (∃ r, t.result = some r) ∧ (t.result ≠ some .stopped → t.phase = .fetch) := by
  induction h with
  | halts | faults | completes => exact ⟨⟨_, rfl⟩, fun _ => rfl⟩
  | stops => exact ⟨⟨_, rfl⟩, fun hn => absurd rfl hn⟩
  | goesOn _ _ _ _ ih => exact ih

/-- Settles O13: a pass always ends. -/
theorem everyStepReturnsAResult : Obligations.EveryStepReturnsAResult := by
  intro s
  obtain ⟨u, hu⟩ := exists_pass decode s
  obtain ⟨r, hr⟩ := (pass_returns hu).1
  exact ⟨_, r, step_eq_next_iff.mpr ⟨u, hu, rfl⟩, hr⟩

/-- Settles O14: the return clears the request, and only a stop saves a later phase. -/
theorem returnClearsStopAndPhase : Obligations.ReturnClearsStopAndPhase := by
  intro s t h
  obtain ⟨u, hu, rfl⟩ := step_eq_next_iff.mp h
  exact ⟨rfl, (pass_returns hu).2⟩

/-! ## What the engine's phase does to the bookkeeping -/

theorem enginePhase_book (d : Word → Instr) (s : State) : (enginePhase d s).All fun t => t.book = s.book :=
  phase_book (d s.ir) s.phase s

theorem stopRequest_of_end {e : PhaseEnd} (h : enginePhase d s = e) : e.All fun x => x.stopRequest = s.stopRequest :=
  h ▸ all_mono (fun _ hb => congrArg Book.stopRequest hb) (enginePhase_book d s)

/-! ## What a pass does not look at -/

/-- The engine does not look at what `g` changes, and what is left of the change at the end of a pass is `f`. -/
structure Unread (d : Word → Instr) (g f : State → State) : Prop where
  phase : ∀ s, (g s).phase = s.phase
  stopRequest : ∀ s, (g s).stopRequest = s.stopRequest
  engine : ∀ s, enginePhase d (g s) = (enginePhase d s).map g
  advanced : ∀ s p, (g s).advanced p = g (s.advanced p)
  ended : ∀ s r, (g s).ended r = f (s.ended r)
  stoppedAt : ∀ s p, (g s).stoppedAt p = f (s.stoppedAt p)

theorem Unread.engine_eq {g f : State → State} (hg : Unread d g f) {e : PhaseEnd} (h : enginePhase d s = e) :
    enginePhase d (g s) = e.map g := by
  rw [hg.engine, h]

theorem unread_setResult (r : Option Result) : Unread d (·.setResult r) id :=
  ⟨fun _ => rfl, fun _ => rfl, fun s => phase_setResult (d s.ir) s.phase r s, fun _ _ => rfl, fun _ _ => rfl,
    fun _ _ => rfl⟩

theorem unread_setStartAddress (a : Word) : Unread d (·.setStartAddress a) (·.setStartAddress a) :=
  ⟨fun _ => rfl, fun _ => rfl, fun s => phase_setStartAddress (d s.ir) s.phase a s, fun _ _ => rfl, fun _ _ => rfl,
    fun _ _ => rfl⟩

/-- A change that is not looked at leaves the pass as it was, phase by phase. -/
theorem pass_of_unread {g f : State → State} (hg : Unread d g f) (h : Pass d s t) : Pass d (g s) (f t) := by
  induction h with
  | halts h => exact hg.ended _ _ ▸ .halts (hg.engine_eq h)
  | faults h => exact hg.ended _ _ ▸ .faults (hg.engine_eq h)
  | @completes s x hp h => exact hg.ended _ _ ▸ .completes ((hg.phase s).trans hp) (hg.engine_eq h)
  | @stops s x hp h hr =>
    rw [← hg.phase s] at hp
    rw [← hg.stoppedAt, ← hg.phase s]
    exact .stops hp (hg.engine_eq h) ((hg.stopRequest x).trans hr)
  | @goesOn s x t hp h hr _ ih =>
    rw [← hg.phase s] at hp
    rw [← hg.advanced, ← hg.phase s] at ih
    exact .goesOn hp (hg.engine_eq h) (by rwa [hg.stopRequest]) ih

/-- The display offset is kept by a pass: were it set to what it was, the end would be the same. -/
theorem pass_startAddress (h : Pass d s t) : t.startAddress = s.startAddress := by
  have hsame : Pass d s (t.setStartAddress s.startAddress) :=
    pass_of_unread (unread_setStartAddress s.startAddress) h
  rw [h.unique hsame, State.setStartAddress_startAddress]

/-- Settles O24: the display offset is one of the things a pass does not look at. -/
theorem displayOffsetChangesNoExecution : Obligations.DisplayOffsetChangesNoExecution := by
  intro s t d
  refine ⟨fun h => ?_, rfl, rfl⟩
  obtain ⟨u, hu, rfl⟩ := step_eq_next_iff.mp h
  have hkept := pass_startAddress hu
  exact ⟨hkept, step_eq_next_iff.mpr ⟨_, pass_of_unread (unread_setStartAddress d) hu, rfl⟩⟩

/-! ## A pass without a stop request -/

/-- From DECODE on, a pass stays within the frame of its instruction. -/
theorem pass_frame (h : Pass d s t) (hp : s.phase ≠ .fetch) : Frame (d s.ir) s t := by
  have hc := h.cycleOf_eq
  rw [cycleOf, if_neg hp] at hc
  exact exec_frame hc

theorem advanced_clear (hx : x.stopRequest = none) (p : Phase) : (x.advanced p).stopRequest = none := by
  rw [State.advanced, hx]
  rfl

/-- It is not stopped, and raises no request. -/
theorem pass_clear (h : Pass d s t) (hs : s.stopRequest = none) :
    t.stopRequest = none ∧ t.result ≠ some .stopped := by
  induction h with
  | halts h => exact ⟨Eq.trans (stopRequest_of_end h) hs, nofun⟩
  | faults h => exact ⟨Eq.trans (stopRequest_of_end h) hs, nofun⟩
  | completes _ h => exact ⟨Eq.trans (stopRequest_of_end h) hs, nofun⟩
  | stops _ h hr =>
    have hnone : some 0 = none := hr.symm.trans (Eq.trans (stopRequest_of_end h) hs)
    cases hnone
  | @goesOn s x t _ h _ _ ih => exact ih (advanced_clear (Eq.trans (stopRequest_of_end h) hs) _)

/-! ## The same pass with a stop request -/

/-- Where a request that `k` checks do not find makes the pass from `s` end, which unstopped ends in `u`: it is stopped,
at the boundary the count says, with nothing lost; or it meets no more checks and ends as it would have, with the
request left. -/
inductive Requested (d : Word → Instr) (s : State) (k : Nat) (u : State) : State → Prop where
  | stopped {t : State} (result : t.result = some .stopped) (clear : t.stopRequest = none) (resumes : Pass d t u)
      (count : s.phase.checksLeft = t.phase.checksLeft + (k + 1)) (saved : t.phase ≠ .fetch) : Requested d s k u t
  | ended (j : Nat) (count : u.result = some .stepped → k = s.phase.checksLeft + j) :
      Requested d s k u (u.setStopRequest (some j))

/-- A phase does what it does whatever the request. -/
theorem enginePhase_request {e : PhaseEnd} (h : enginePhase d s = e) (r : Option Nat) :
    enginePhase d (s.setStopRequest r) = e.map (·.setStopRequest r) :=
  h ▸ phase_setStopRequest (d s.ir) s.phase r s

theorem pass_requested (h : Pass d s u) (hs : s.stopRequest = none) (k : Nat) :
    ∃ t, Pass d (s.setStopRequest (some k)) t ∧ Requested d s k u t := by
  induction h generalizing k with
  | halts h => exact ⟨_, .halts (enginePhase_request h _), .ended k nofun⟩
  | faults h => exact ⟨_, .faults (enginePhase_request h _), .ended k nofun⟩
  | @completes s x hp h =>
    refine ⟨_, .completes hp (enginePhase_request h _), .ended k fun _ => ?_⟩
    rw [hp]
    exact (Nat.zero_add k).symm
  | stops _ h hr =>
    have hnone : some 0 = none := hr.symm.trans (Eq.trans (stopRequest_of_end h) hs)
    cases hnone
  | @goesOn s x u hp h hr rest ih =>
    have hx : x.stopRequest = none := Eq.trans (stopRequest_of_end h) hs
    have hcount := Phase.checksLeft_next hp
    cases k with
    | zero =>
      have hresume := pass_of_unread (unread_setResult (some .stopped)) rest
      rw [State.advanced, hx] at hresume
      exact ⟨_, .stops hp (enginePhase_request h _) rfl,
        .stopped rfl rfl hresume hcount (Phase.next_ne_fetch hp)⟩
    | succ k =>
      obtain ⟨t, ht, hreq⟩ := ih (advanced_clear hx _) k
      refine ⟨t, .goesOn hp (enginePhase_request h _) nofun ht, ?_⟩
      cases hreq with
      | stopped result clear resumes count saved =>
        refine .stopped result clear resumes ?_ saved
        rw [hcount, ← Nat.add_assoc]
        exact congrArg (· + 1) count
      | ended j count =>
        refine .ended j fun hu => ?_
        rw [hcount, count hu]
        exact Nat.add_right_comm _ _ _

/-- The same about a pass with its request in it, from the unstopped pass of the same state. -/
theorem requested_of_pass {k : Nat} (hu : Pass d (s.setStopRequest none) u) (hr : s.stopRequest = some k)
    (ht : Pass d s t) : Requested d (s.setStopRequest none) k u t := by
  obtain ⟨v, hv, hreq⟩ := pass_requested hu rfl k
  have hsame : (s.setStopRequest none).setStopRequest (some k) = s := State.setStopRequest_self hr
  rw [hsame] at hv
  exact ht.unique hv ▸ hreq

/-- Whatever the request, a pass is stopped or ends as the unstopped one but for the request. -/
theorem pass_stopped_or_same (h : Pass d s t) (hu : Pass d (s.setStopRequest none) u) :
    t.result = some .stopped ∨ ∃ r, t = u.setStopRequest r := by
  cases hr : s.stopRequest with
  | none =>
    rw [State.setStopRequest_self hr] at hu
    exact .inr ⟨u.stopRequest, h.unique hu⟩
  | some k =>
    cases requested_of_pass hu hr h with
    | stopped result => exact .inl result
    | ended j => exact .inr ⟨some j, rfl⟩

/-! ## Resumption -/

/-- Settles O15: the stopped state's own pass ends where the unstopped pass does. -/
theorem stoppedStepResumesToTheSameEnd : Obligations.StoppedStepResumesToTheSameEnd := by
  intro s t k h hstopped
  obtain ⟨u, hu⟩ := exists_pass decode (s.setStopRequest none)
  have hend : step (s.setStopRequest none) = .next (u.setStopRequest none) := step_eq_next_iff.mpr ⟨u, hu, rfl⟩
  obtain ⟨v, hv, rfl⟩ := step_eq_next_iff.mp h
  rw [hend]
  cases requested_of_pass (s := s.setStopRequest (some k)) hu rfl hv with
  | stopped _ clear resumes =>
    rw [State.setStopRequest_self clear]
    exact step_eq_next_iff.mpr ⟨u, resumes, rfl⟩
  | ended => exact absurd hstopped (pass_clear hu rfl).2

end Sys2Proof.Proofs.Stops
end

section
/-! SUPPORT. FETCH (40_cycle.md R101, 60_exceptions.md R212) and what the phases before STORE leave alone: the first
phase of a step, in bounds and beyond memory, and one phase after it. -/

namespace Sys2Proof.Proofs.Phases

open Sys2Proof Sys2Proof.Machine Sys2Proof.Proofs.Frames Sys2Proof.Proofs.Stops

variable {d : Word → Instr} {i : Instr} {p : Phase} {s t u x : State} {f : Fault}

/-! ## FETCH -/

theorem enginePhase_fetch (hp : s.phase = .fetch) (hin : s.inBounds s.pc = true) :
    enginePhase d s = .goOn (s.fetched (s.memory.read s.pc.toNat)) := by
  rw [enginePhase, hp]
  exact fetchPhase_inBounds hin

/-- A pass from FETCH in bounds is stopped at once, or goes on from DECODE with the word fetched. -/
theorem pass_of_fetch (hp : s.phase = .fetch) (hin : s.inBounds s.pc = true) (h : Pass d s t) :
    (s.stopRequest = some 0 ∧ t = (s.fetched (s.memory.read s.pc.toNat)).stoppedAt .decode) ∨
      (s.stopRequest ≠ some 0 ∧ Pass d ((s.fetched (s.memory.read s.pc.toNat)).advanced .decode) t) := by
  have he := enginePhase_fetch (d := d) hp hin
  cases h with
  | halts h => cases he.symm.trans h
  | faults h => cases he.symm.trans h
  | completes hstore => rw [hp] at hstore; cases hstore
  | stops _ h hr =>
    cases he.symm.trans h
    rw [hp]
    exact .inl ⟨hr, rfl⟩
  | goesOn _ h hr rest =>
    cases he.symm.trans h
    rw [hp] at rest
    exact .inr ⟨hr, rest⟩

/-- The step from FETCH in bounds: the check after FETCH, then the instruction fetched. -/
theorem step_fetch (hp : s.phase = .fetch) (hin : s.inBounds s.pc = true) :
    step s = returnToHost (boundary .decode execIr (s.fetched (s.memory.read s.pc.toNat))) := by
  rw [step, cycle_fetch hp, fetchPhase_inBounds hin, afterPhase]

/-- With no request in it, an instruction's state is returned as it is. -/
theorem returnToHost_exec (hp : s.phase ≠ .fetch) (hs : s.stopRequest = none) :
    returnToHost (exec i s) = exec i s := by
  obtain ⟨t, ht⟩ := exists_pass (fun _ => i) s
  rw [(exec_eq_next_iff hp).mpr ht, returnToHost_next, State.setStopRequest_self (pass_clear ht hs).1]

/-- Settles O10, clause by clause: the check after FETCH finds no request, or one still to come; or the pass is
resumed. -/
theorem stepRunsTheDecodedInstruction : Obligations.StepRunsTheDecodedInstruction := by
  refine ⟨fun s hp hin hr => ?_, fun s k hp hin hr => ?_, fun s hp => ?_⟩
  · have hclear : (s.fetched (s.memory.read s.pc.toNat)).stopRequest = none := hr
    rw [step_fetch hp hin, boundary_clear hclear]
    exact returnToHost_exec nofun hr
  · have hwait : (s.fetched (s.memory.read s.pc.toNat)).stopRequest = some (k + 1) := hr
    rw [step_fetch hp hin, boundary_wait hwait]
    rfl
  · rw [step, cycle_resumed hp]
    rfl

/-- Settles O11: the check after FETCH finds the request. -/
theorem fetchWritesInstructionAndPcOnly : Obligations.FetchWritesInstructionAndPcOnly := by
  intro s hp hin hr
  refine ⟨(s.fetched (s.memory.read s.pc.toNat)).stoppedAt .decode, ?_, rfl, rfl, rfl, rfl⟩
  have hstop : (s.fetched (s.memory.read s.pc.toNat)).stopRequest = some 0 := hr
  rw [step_fetch hp hin, boundary_stop hstop]
  rfl

theorem step_fetch_outOfBounds (hp : s.phase = .fetch) (hout : s.inBounds s.pc = false) :
    step s = .next ((s.setStopRequest none).setResult (some (.faulted (.memoryFault s.pc)))) := by
  rw [step, cycle_fetch hp, fetchPhase_outOfBounds hout, afterPhase_raise, State.ended, State.setPhase_self hp]
  rfl

/-- Settles O12: the state the fault leaves stands at the same FETCH. -/
theorem fetchBeyondMemoryFaultsAndRepeats : Obligations.FetchBeyondMemoryFaultsAndRepeats := by
  intro s hp hout
  have hstep := step_fetch_outOfBounds hp hout
  refine ⟨hstep, fun t ht => ?_⟩
  rw [hstep] at ht
  cases ht
  exact step_fetch_outOfBounds hp hout

/-- After a fetch in bounds the pass keeps the word in IR and its address in currentPC. -/
theorem step_fetch_latches (hp : s.phase = .fetch) (hin : s.inBounds s.pc = true) (h : step s = .next t) :
    t.ir = s.memory.read s.pc.toNat ∧ t.currentPC = s.pc := by
  obtain ⟨u, hu, rfl⟩ := step_eq_next_iff.mp h
  obtain ⟨_, rfl⟩ | ⟨_, rest⟩ := pass_of_fetch hp hin hu
  · exact ⟨rfl, rfl⟩
  · have hf := pass_frame rest nofun
    exact ⟨hf.ir, hf.currentPC⟩

/-! ## One phase after FETCH -/

theorem loadWord_raise {ea : Word} (h : loadWord ea s = .raise f t) : t = s.setMar ea := by
  cases hin : s.inBounds ea with
  | true => rw [loadWord_inBounds hin] at h; cases h
  | false => rw [loadWord_outOfBounds hin] at h; cases h; rfl

theorem storeWord_raise {ea v : Word} (h : storeWord ea v s = .raise f t) : t = s.setMar ea := by
  cases hin : s.inBounds ea with
  | true => rw [storeWord_inBounds hin] at h; cases h
  | false => rw [storeWord_outOfBounds hin] at h; cases h; rfl

/-- A phase that raises is no call's, and has written MAR at most. -/
theorem phase_raise (hp : p ≠ .fetch) (h : (microOf i).phase p s = .raise f t) :
    i.call = false ∧ (t = s ∨ ∃ ea, t = s.setMar ea) := by
  cases p with
  | fetch => exact absurd rfl hp
  | decode | evalAddr | fetchOp => cases i <;> cases h <;> exact ⟨rfl, .inl rfl⟩
  | execute =>
    cases i with
    | ld | ldr => exact ⟨rfl, .inr ⟨_, loadWord_raise h⟩⟩
    | _ => cases h <;> exact ⟨rfl, .inl rfl⟩
  | store =>
    cases i with
    | st | str => exact ⟨rfl, .inr ⟨_, storeWord_raise h⟩⟩
    | br => cases (commitBranch_eq s).symm.trans h
    | _ => cases h <;> exact ⟨rfl, .inl rfl⟩

/-- Before STORE no phase writes memory; a register only a call's EVAL_ADDR, which links; PC only a call's EXECUTE. -/
theorem phase_beforeStore (hf : p ≠ .fetch) (hp : p ≠ .store) (i : Instr) (s : State) :
    ((microOf i).phase p s).All fun t => t.memory = s.memory ∧ (i.call = false → t.regs = s.regs) ∧
      ((p = .execute → i.call = false) → t.pc = s.pc) := by
  cases p with
  | fetch => exact absurd rfl hf
  | store => exact absurd rfl hp
  | decode | fetchOp => cases i <;> exact ⟨rfl, fun _ => rfl, fun _ => rfl⟩
  | evalAddr =>
    cases i with
    | jsr | jsrr => exact ⟨rfl, nofun, fun _ => rfl⟩
    | _ => exact ⟨rfl, fun _ => rfl, fun _ => rfl⟩
  | execute =>
    cases i with
    | jsr | jsrr => exact ⟨rfl, fun _ => rfl, fun h => nomatch h rfl⟩
    | ld | ldr =>
      exact loadWord_all ⟨rfl, fun _ => rfl, fun _ => rfl⟩ fun _ => ⟨rfl, fun _ => rfl, fun _ => rfl⟩
    | _ => exact ⟨rfl, fun _ => rfl, fun _ => rfl⟩

/-- Only a supported instruction goes on to its next phase (R102, R202). -/
theorem supported_of_goOn (hp : p ≠ .fetch) (h : (microOf i).phase p s = .goOn t) : i.supported = true := by
  cases i with
  | halt | rtiIllegal | ldiIllegal | stiIllegal | reservedIllegal =>
    cases p with
    | fetch => exact absurd rfl hp
    | _ => cases h
  | _ => rfl

/-- A supported instruction's phases before STORE go on, but for a load's EXECUTE. -/
theorem phase_goesOn (hf : p ≠ .fetch) (hp : p ≠ .store) (hi : i.supported = true)
    (hl : i.loads = false ∨ p ≠ .execute) (s : State) : ∃ t, (microOf i).phase p s = .goOn t := by
  cases p with
  | fetch => exact absurd rfl hf
  | store => exact absurd rfl hp
  | decode | evalAddr | fetchOp =>
    cases i with
    | halt | rtiIllegal | ldiIllegal | stiIllegal | reservedIllegal => cases hi
    | _ => exact ⟨_, rfl⟩
  | execute =>
    replace hl : i.loads = false := hl.resolve_right fun h => h rfl
    cases i with
    | halt | rtiIllegal | ldiIllegal | stiIllegal | reservedIllegal => cases hi
    | ld | ldr => cases hl
    | _ => exact ⟨_, rfl⟩

end Sys2Proof.Proofs.Phases
end

section
/-! SUPPORT. Whole passes from the facts about single phases (40_cycle.md section 3, 60_exceptions.md sections 2 and 3):
the pass in flight stays consistent, a fault skips the instruction, and each boundary can take a stop. -/

namespace Sys2Proof.Proofs.Passes

open Sys2Proof Sys2Proof.Machine Sys2Proof.Proofs.Frames Sys2Proof.Proofs.Stops Sys2Proof.Proofs.Phases
  Sys2Proof.Proofs.Completion

variable {d : Word → Instr} {s t u x : State}

/-! ## The pass in flight -/

/-- The latches describe the instruction whose pass stands at a later phase. -/
structure Consistent (s : State) : Prop where
  fetched : s.inBounds s.currentPC = true ∧ s.ir = s.memory.read s.currentPC.toNat
  decoded : s.phase ≠ .decode → (decode s.ir).supported = true
  sequential : (s.phase = .store → (decode s.ir).call = false) → s.pc = s.currentPC + 1#16

theorem inFlight_of_fetch (h : s.phase = .fetch) : s.InFlight :=
  ⟨fun hn => absurd h hn, fun hn => absurd h hn, fun hn => absurd h hn, fun hn => absurd h hn⟩

theorem Consistent.inFlight (h : Consistent s) (hr : s.result = some .stopped) : s.InFlight :=
  ⟨fun _ => hr, fun _ => h.fetched, fun _ => h.decoded, fun _ => h.sequential⟩

theorem consistent_of_inFlight (h : s.InFlight) (hp : s.phase ≠ .fetch) : Consistent s :=
  ⟨h.fetched hp, h.decoded hp, h.sequential hp⟩

/-- FETCH that goes on leaves the latches of the instruction it fetched. -/
theorem consistent_of_fetch (hp : s.phase = .fetch) (h : enginePhase d s = .goOn x) :
    Consistent (x.setPhase .decode) := by
  rw [enginePhase, hp] at h
  cases hin : s.inBounds s.pc with
  | true =>
    cases (fetchPhase_inBounds hin).symm.trans h
    exact ⟨⟨hin, rfl⟩, fun hn => absurd rfl hn, fun _ => rfl⟩
  | false => cases (fetchPhase_outOfBounds hin).symm.trans h

/-- Every later phase before STORE keeps them so. -/
theorem Consistent.next (hc : Consistent s) (hf : s.phase ≠ .fetch) (hp : s.phase ≠ .store)
    (h : enginePhase decode s = .goOn x) : Consistent (x.setPhase s.phase.next) := by
  have hframe : Frame (decode s.ir) s x := (Frame.phase (decode s.ir) hf s).goOn h
  obtain ⟨hmem, -, hpc⟩ := (phase_beforeStore hf hp (decode s.ir) s).goOn h
  obtain ⟨hin, hir⟩ := hc.fetched
  constructor
  · show x.inBounds x.currentPC = true ∧ x.ir = x.memory.read x.currentPC.toNat
    rw [State.inBounds, hframe.config, hframe.currentPC, hframe.ir, hmem]
    exact ⟨hin, hir⟩
  · intro _
    show (decode x.ir).supported = true
    rw [hframe.ir]
    exact supported_of_goOn hf h
  · intro hcall
    replace hcall : s.phase.next = .store → (decode x.ir).call = false := hcall
    show x.pc = x.currentPC + 1#16
    rw [hframe.currentPC, hpc fun he => hframe.ir ▸ hcall (by rw [he]; rfl)]
    exact hc.sequential fun hs => absurd hs hp

theorem consistent_next (hs : s.phase ≠ .fetch → Consistent s) (hp : s.phase ≠ .store)
    (h : enginePhase decode s = .goOn x) : Consistent (x.setPhase s.phase.next) := by
  by_cases hf : s.phase = .fetch
  · rw [hf]
    exact consistent_of_fetch hf h
  · exact (hs hf).next hf hp h

theorem pass_inFlight (h : Pass decode s t) (hs : s.phase ≠ .fetch → Consistent s) : t.InFlight := by
  induction h with
  | halts | faults | completes => exact inFlight_of_fetch rfl
  | stops hp h =>
    obtain ⟨hfetched, hdecoded, hseq⟩ := consistent_next hs hp h
    exact Consistent.inFlight ⟨hfetched, hdecoded, hseq⟩ rfl
  | goesOn hp h _ _ ih =>
    refine ih fun _ => ?_
    obtain ⟨hfetched, hdecoded, hseq⟩ := consistent_next hs hp h
    exact ⟨hfetched, hdecoded, hseq⟩

/-- Settles O51, by induction on the pass. -/
theorem stepKeepsThePassInFlight : Obligations.StepKeepsThePassInFlight := by
  intro s t hs h
  obtain ⟨u, hu, rfl⟩ := step_eq_next_iff.mp h
  obtain ⟨hstopped, hfetched, hdecoded, hseq⟩ := pass_inFlight hu (consistent_of_inFlight hs)
  exact ⟨hstopped, hfetched, hdecoded, hseq⟩

/-! ## Faults and HALT -/

/-- A pass that faults after FETCH is no call's, and has changed no register, not PC and no memory. -/
theorem pass_faulted (h : Pass d s t) (hf : s.phase ≠ .fetch) {f : Fault} (ht : t.result = some (.faulted f)) :
    (d s.ir).call = false ∧ t.phase = .fetch ∧ t.regs = s.regs ∧ t.pc = s.pc ∧ t.memory = s.memory := by
  induction h with
  | halts | completes | stops => cases ht
  | faults h =>
    obtain ⟨hcall, rfl | ⟨ea, rfl⟩⟩ := phase_raise hf h
    · exact ⟨hcall, rfl, rfl, rfl, rfl⟩
    · exact ⟨hcall, rfl, rfl, rfl, rfl⟩
  | @goesOn s x t hp h _ _ ih =>
    obtain ⟨hcall, hphase, hregs, hpc, hmem⟩ := ih (Phase.next_ne_fetch hp) ht
    have hir : x.ir = s.ir := (enginePhase_ir hf).goOn h
    obtain ⟨xmem, xregs, xpc⟩ := (phase_beforeStore hf hp (d s.ir) s).goOn h
    replace hcall : (d s.ir).call = false := hir ▸ hcall
    exact ⟨hcall, hphase, hregs.trans (xregs hcall), hpc.trans (xpc fun _ => hcall), hmem.trans xmem⟩

/-- Settles O18: after FETCH's writes a fault finds only latches written. -/
theorem faultedInstructionIsSkipped : Obligations.FaultedInstructionIsSkipped := by
  intro s t f hp hin h hfault
  obtain ⟨u, hu, rfl⟩ := step_eq_next_iff.mp h
  obtain ⟨_, rfl⟩ | ⟨_, rest⟩ := pass_of_fetch hp hin hu
  · cases hfault
  · have hframe := pass_frame rest nofun
    obtain ⟨_, hphase, hregs, hpc, hmem⟩ := pass_faulted rest nofun hfault
    exact ⟨hphase, hpc, hframe.currentPC, hframe.ir, hregs, hframe.flags, hmem⟩

/-- Settles O17: DECODE ends the pass before the next check, whatever the request. -/
theorem faultAndHaltWinOverPendingStop : Obligations.FaultAndHaltWinOverPendingStop := by
  rintro s w k hp hin hr rfl
  have hstep := stepRunsTheDecodedInstruction.2.1 s k hp hin hr
  refine ⟨fun hi => ?_, fun hi => ?_⟩
  · rw [hstep, exec_illegal hi]
    rfl
  · rw [hstep, hi, exec_halt]
    rfl

end Sys2Proof.Proofs.Passes
end

section
/-! SUPPORT. Stores and stops (40_cycle.md section 3): what a store leaves in memory whatever the request, and the stop
each boundary takes. -/

namespace Sys2Proof.Proofs.Boundaries

open Sys2Proof Sys2Proof.Machine Sys2Proof.Proofs.Frames Sys2Proof.Proofs.Stops Sys2Proof.Proofs.Phases
  Sys2Proof.Proofs.Passes Sys2Proof.Proofs.Completion

variable {d : Word → Instr} {s t u x : State}

/-! ## A stopped pass has not stored -/

theorem enginePhase_memory (hp : s.phase ≠ .store) : (enginePhase d s).All fun x => x.memory = s.memory := by
  by_cases hf : s.phase = .fetch
  · rw [enginePhase, hf]
    exact fetchPhase_all (P := fun x => x.memory = s.memory) rfl fun _ => rfl
  · exact all_mono (fun _ h => h.1) (phase_beforeStore hf hp (d s.ir) s)

theorem pass_stopped_memory (h : Pass d s t) (ht : t.result = some .stopped) : t.memory = s.memory := by
  induction h with
  | halts | faults | completes => cases ht
  | @stops s x hp h =>
    have hx : x.memory = s.memory := (enginePhase_memory hp).goOn h
    exact hx
  | @goesOn s x t hp h _ _ ih =>
    have hx : x.memory = s.memory := (enginePhase_memory hp).goOn h
    exact (ih ht).trans hx

/-- A word that the unstopped pass does not write, no stopped pass writes. -/
theorem exec_memory_read {i : Instr} (hp : s.phase = .decode) (h : exec i s = .next t)
    (hu : exec i (s.setStopRequest none) = .next u) {a : Nat} (ha : u.memory.read a = s.memory.read a) :
    t.memory.read a = s.memory.read a := by
  have hf : s.phase ≠ .fetch := by rw [hp]; nofun
  have hpass := (exec_eq_next_iff hf).mp h
  have hupass := (exec_eq_next_iff (s := s.setStopRequest none) hf).mp hu
  obtain hstopped | ⟨r, rfl⟩ := pass_stopped_or_same hpass hupass
  · rw [pass_stopped_memory hpass hstopped]
  · exact ha

/-- What a store from DECODE with no request leaves in memory, in bounds and beyond. -/
theorem st_memory (sr : Reg) (off : Word) (h : s.ready) :
    ∃ u, exec (.st sr off) s = .next u ∧
      ∀ a, a ≠ (s.pcRelative off).toNat → u.memory.read a = s.memory.read a := by
  cases hin : s.inBounds (s.pcRelative off) with
  | true =>
    refine ⟨_, stStoresPcRelative sr off _ s h rfl hin, fun a ha => ?_⟩
    exact (Memory.read_write s.memory _ a _).trans (if_neg ha)
  | false => exact ⟨_, dataFaultKeepsEarlierWritesOnly.2.1 sr off _ s h rfl hin, fun a _ => by simp⟩

theorem str_memory (sr base : Reg) (off : Word) (h : s.ready) :
    ∃ u, exec (.str sr base off) s = .next u ∧
      ∀ a, a ≠ (s.reg base + off).toNat → u.memory.read a = s.memory.read a := by
  cases hin : s.inBounds (s.reg base + off) with
  | true =>
    refine ⟨_, strStoresBaseOffset sr base off _ s h rfl hin, fun a ha => ?_⟩
    exact (Memory.read_write s.memory _ a _).trans (if_neg ha)
  | false => exact ⟨_, dataFaultKeepsEarlierWritesOnly.2.2 sr base off _ s h rfl hin, fun a _ => by simp⟩

/-- Settles O48: the frame gives the fields; memory is that of the unstopped pass, or not yet written. -/
theorem storesFrame : Obligations.StoresFrame := by
  intro sr base off ea s t hp h
  have hready : (s.setStopRequest none).ready := ⟨hp, rfl⟩
  obtain ⟨i, hi, hrow, hmem⟩ : ∃ i, exec i s = .next t ∧
      (i.destination = none ∧ i.transfersControl = false ∧ i.branches = false) ∧
      ∀ a, a ≠ ea.toNat → t.memory.read a = s.memory.read a := by
    obtain ⟨h, rfl⟩ | ⟨h, rfl⟩ := h
    · obtain ⟨u, hu, hread⟩ := st_memory sr off hready
      exact ⟨_, h, ⟨rfl, rfl, rfl⟩, fun a ha => exec_memory_read hp h hu (hread a ha)⟩
    · obtain ⟨u, hu, hread⟩ := str_memory sr base off hready
      rw [State.setStopRequest_reg] at hread
      exact ⟨_, h, ⟨rfl, rfl, rfl⟩, fun a ha => exec_memory_read hp h hu (hread a ha)⟩
  obtain ⟨hdest, hpc, hbr⟩ := hrow
  have hf := exec_frame hi
  exact ⟨State.regs_ext fun j => hf.reg j (by rw [hdest]; nofun), hf.pc hpc, hf.flags, hf.req hbr, hf.ir,
    hf.currentPC, hf.startAddress, hmem⟩

/-! ## A stop at each boundary -/

/-- With a check left a supported instruction goes on to it; a load's EXECUTE is left out. -/
theorem enginePhase_goesOn (hf : s.phase ≠ .fetch) {k : Nat} (hk : k < s.phase.checksLeft)
    (hi : (d s.ir).supported = true) (hl : (d s.ir).loads = false ∨ k + 1 < s.phase.checksLeft) :
    ∃ x, enginePhase d s = .goOn x := by
  refine phase_goesOn hf (fun hp => ?_) hi (hl.imp_right fun hk hp => ?_) s
  · rw [hp] at hk
    exact absurd hk (Nat.not_lt_zero k)
  · rw [hp] at hk
    exact absurd hk (Nat.not_lt.mpr (Nat.le_add_left 1 k))

/-- A request with checks left is found, in a pass of a supported instruction; a load's EXECUTE is left out. -/
theorem pass_stops (h : Pass d s t) (hf : s.phase ≠ .fetch) {k : Nat} (hr : s.stopRequest = some k)
    (hk : k < s.phase.checksLeft) (hi : (d s.ir).supported = true)
    (hl : (d s.ir).loads = false ∨ k + 1 < s.phase.checksLeft) : t.result = some .stopped := by
  induction h generalizing k with
  | halts h =>
    obtain ⟨x, hx⟩ := enginePhase_goesOn hf hk hi hl
    cases hx.symm.trans h
  | faults h =>
    obtain ⟨x, hx⟩ := enginePhase_goesOn hf hk hi hl
    cases hx.symm.trans h
  | completes hp =>
    rw [hp] at hk
    exact absurd hk (Nat.not_lt_zero k)
  | stops => rfl
  | @goesOn s x t hp h hx _ ih =>
    have hxr : x.stopRequest = some k := Eq.trans (stopRequest_of_end h) hr
    have hir : x.ir = s.ir := (enginePhase_ir hf).goOn h
    have hcount := Phase.checksLeft_next hp
    obtain _ | k := k
    · exact absurd hxr hx
    · refine ih (k := k) (Phase.next_ne_fetch hp) ?_ ?_ ?_ ?_
      · rw [State.advanced, hxr]; rfl
      · show k < s.phase.next.checksLeft; omega
      · show (d x.ir).supported = true; rwa [hir]
      · show (d x.ir).loads = false ∨ k + 1 < s.phase.next.checksLeft
        rw [hir]
        exact hl.imp_right fun hk => by omega

/-- A load in bounds completes, so with no request it meets every check. -/
theorem load_completes {i : Instr} (h : s.ready) (hl : i.loads = true)
    (hld : ∀ dr off, i = .ld dr off → s.inBounds (s.currentPC + off) = true)
    (hldr : ∀ dr base off, i = .ldr dr base off → s.inBounds (s.reg base + off) = true) :
    ∃ u : State, exec i s = .next (u.ended .stepped) := by
  cases i with
  | ld dr off => exact ⟨_, ldLoadsPcRelative dr off _ _ s h rfl (hld dr off rfl) rfl⟩
  | ldr dr base off => exact ⟨_, (ldrLoadsBaseOffset.2 dr base off _ _ s h rfl).1 (hldr dr base off rfl) rfl⟩
  | _ => cases hl

/-- From FETCH, the step of a load in bounds completes when no stop is requested. -/
theorem step_load_completes (hp : s.phase = .fetch) (hin : s.inBounds s.pc = true) (hr : s.stopRequest = none)
    (hl : (decode (s.memory.read s.pc.toNat)).loads = true)
    (hld : ∀ dr off, decode (s.memory.read s.pc.toNat) = .ld dr off → s.inBounds (s.pc + off) = true)
    (hldr : ∀ dr base off, decode (s.memory.read s.pc.toNat) = .ldr dr base off →
      s.inBounds (s.reg base + off) = true)
    (hu : Pass decode s u) : u.result = some .stepped := by
  have hready : ((s.fetched (s.memory.read s.pc.toNat)).setPhase .decode).ready := ⟨rfl, hr⟩
  obtain ⟨v, hv⟩ := load_completes hready hl hld hldr
  have hstep := (stepRunsTheDecodedInstruction.1 s hp hin hr).trans hv
  obtain ⟨w, hw, hvw⟩ := step_eq_next_iff.mp hstep
  obtain rfl := hu.unique hw
  exact (congrArg State.result hvw).symm

/-- The phase a stop saves, from the checks that are left in it. -/
theorem phase_of_checksLeft {p q : Phase} {k : Nat} (h : 5 = q.checksLeft + (k + 1))
    (hp : [Phase.decode, .evalAddr, .fetchOp, .execute, .store][k]? = some p) : q = p := by
  have hk : k = 4 - q.checksLeft := by omega
  subst hk
  cases q <;> simp [Phase.checksLeft] at h hp <;> exact hp

/-- Settles O16: every phase before the boundary goes on. After a load's EXECUTE this is so because the unstopped pass
completes, and a pass that completes meets every check. -/
theorem stopIsTakenAtEachBoundary : Obligations.StopIsTakenAtEachBoundary := by
  rintro s w k p hp hin hr rfl hi hphase hld hldr
  have hk : k < 5 := (List.getElem?_eq_some_iff.mp hphase).1
  obtain ⟨u, hu⟩ := exists_pass decode (s.setStopRequest none)
  obtain ⟨t, ht⟩ := exists_pass decode s
  have hreq := requested_of_pass hu hr ht
  have hchecks : (s.setStopRequest none).phase.checksLeft = 5 := congrArg Phase.checksLeft hp
  have hstopped : t.result = some .stopped := by
    obtain ⟨_, rfl⟩ | ⟨hne, rest⟩ := pass_of_fetch hp hin ht
    · rfl
    obtain _ | k := k
    · exact absurd hr hne
    by_cases hlast : (decode (s.memory.read s.pc.toNat)).loads = true ∧ k = 3
    · obtain ⟨hload, rfl⟩ := hlast
      have hu := step_load_completes (s := s.setStopRequest none) hp hin rfl hload (fun dr off => hld dr off rfl)
        (fun dr base off => hldr dr base off rfl) hu
      cases hreq with
      | stopped result => exact result
      | ended j count =>
        have hcount := count hu
        omega
    · refine pass_stops rest nofun (k := k) (congrArg (Option.map Nat.pred) hr) (Nat.lt_of_succ_lt_succ hk) hi ?_
      show (decode (s.memory.read s.pc.toNat)).loads = false ∨ k + 1 < 4
      cases hload : (decode (s.memory.read s.pc.toNat)).loads with
      | false => exact .inl rfl
      | true => exact .inr (by have hk3 : k ≠ 3 := fun e => hlast ⟨hload, e⟩; omega)
  have hsaved : t.phase = p := by
    cases hreq with
    | stopped _ _ _ count => exact phase_of_checksLeft (hchecks.symm.trans count) hphase
    | ended => exact absurd hstopped (pass_clear hu rfl).2
  have hstep := step_eq_next_iff.mpr ⟨t, ht, rfl⟩
  obtain ⟨hir, hpc⟩ := step_fetch_latches hp hin hstep
  have hmem := pass_stopped_memory ht hstopped
  exact ⟨_, hstep, hstopped, hsaved, hmem, hpc, hir⟩

end Sys2Proof.Proofs.Boundaries
end

section
/-! SUPPORT. One step after another (40_cycle.md R110, R112, R115): a store and the fetch of what it stored, a transfer
beyond memory and the fetch that faults, a branch to itself, and RUN as repeated passes. -/

namespace Sys2Proof.Proofs.Runs

open Sys2Proof Sys2Proof.Machine Sys2Proof.Proofs.Frames Sys2Proof.Proofs.Stops Sys2Proof.Proofs.Phases
  Sys2Proof.Proofs.Completion

variable {s t u : State}

/-! ## The next FETCH -/

/-- A step from an address whose cell was just written has fetched the word written. -/
theorem step_fetches_written {ea v : Word} (hp : t.phase = .fetch) (hin : t.inBounds ea = true) {m : Memory}
    (hm : t.memory = m.write ea.toNat v) (h : step (t.setPc ea) = .next u) : u.ir = v := by
  obtain ⟨hir, -⟩ := step_fetch_latches (s := t.setPc ea) hp hin h
  rw [hir, State.setPc_memory, State.setPc_pc, hm, Memory.read_write, if_pos rfl]

/-- Settles O37: the store's whole next state stands at FETCH with the word written. -/
theorem storeIsSeenByTheNextFetch : Obligations.StoreIsSeenByTheNextFetch := by
  intro sr base off s t u hready
  refine ⟨fun hin h hu => ?_, fun hin h hu => ?_⟩
  · rw [stStoresPcRelative sr off _ s hready rfl hin] at h
    cases h
    exact step_fetches_written (m := s.memory) (by simp) (by simpa using hin) (by simp) hu
  · rw [strStoresBaseOffset sr base off _ s hready rfl hin] at h
    cases h
    exact step_fetches_written (m := s.memory) (by simp) (by simpa using hin) (by simp) hu

/-- A control transfer completes, and raises no request. -/
theorem transfer_completes {i : Instr} (hi : i.transfersControl = true) (h : s.ready) :
    ∃ u : State, exec i s = .next (u.ended .stepped) ∧ u.stopRequest = none := by
  cases i with
  | br n z p off => exact ⟨_, branchTestsRequestedFlags n z p off s h, h.2⟩
  | jmp base => exact ⟨_, jumpGoesToTheRegister.2 base s h, h.2⟩
  | jsr off => exact ⟨_, jsrLinksAndCalls off s h, h.2⟩
  | jsrr base => exact ⟨_, jsrrReadsItsBaseAfterTheLink base s h, h.2⟩
  | _ => cases hi

/-- Settles O42: the transfer completes, and only the next FETCH looks at the bound. -/
theorem transferBeyondMemoryFaultsAtTheNextFetch : Obligations.TransferBeyondMemoryFaultsAtTheNextFetch := by
  intro i s hi hready
  obtain ⟨u, hu, hclear⟩ := transfer_completes hi hready
  refine ⟨_, hu, rfl, fun hout => ?_⟩
  rw [State.inBounds, ← (exec_frame hu).config] at hout
  have hstep := step_fetch_outOfBounds (s := u.ended .stepped) rfl hout
  rwa [State.setStopRequest_self (s := u.ended .stepped) hclear] at hstep

/-! ## A branch to itself (R180) -/

/-- The machine stands at FETCH of an in-bounds BR to itself, a requested flag set, with no stop request. -/
structure SelfBranch (n z p : Bool) (s : State) : Prop where
  phase : s.phase = .fetch
  clear : s.stopRequest = none
  inBounds : s.inBounds s.pc = true
  word : decode (s.memory.read s.pc.toNat) = .br n z p 0#16
  taken : CondFlags.anyRequested ⟨n, z, p⟩ s.flags = true

/-- A BR to itself that is taken completes and leaves PC at its own address. -/
theorem br_to_itself {n z p : Bool} (h : s.ready) (htaken : CondFlags.anyRequested ⟨n, z, p⟩ s.flags = true) :
    ∃ t : State, exec (.br n z p 0#16) s = .next t ∧ t.result = some .stepped ∧ t.phase = .fetch ∧
      t.stopRequest = none ∧ t.pc = s.currentPC := by
  have hbr := branchTestsRequestedFlags n z p 0#16 s h
  rw [if_pos ((anyRequested_iff ⟨n, z, p⟩ s.flags).mp htaken)] at hbr
  exact ⟨_, hbr, rfl, rfl, h.2, BitVec.add_zero _⟩

/-- One pass completes and leaves the machine there again. -/
theorem SelfBranch.pass {n z p : Bool} (h : SelfBranch n z p s) :
    ∃ t : State, cycle s = .next t ∧ t.result = some .stepped ∧ SelfBranch n z p t := by
  obtain ⟨hp, hclear, hin, hword, htaken⟩ := h
  have hfetched : (s.fetched (s.memory.read s.pc.toNat)).stopRequest = none := hclear
  have hready : ((s.fetched (s.memory.read s.pc.toNat)).setPhase .decode).ready := ⟨rfl, hclear⟩
  obtain ⟨t, ht, hresult, hphase, hnone, hpc⟩ := br_to_itself hready htaken
  have hf := exec_frame ht
  have hmem : t.memory = s.memory := hf.memory rfl
  have hpc' : t.pc = s.pc := hpc
  refine ⟨t, ?_, hresult, hphase, hnone, ?_, ?_, ?_⟩
  · rw [cycle_fetch hp, fetchPhase_inBounds hin, afterPhase, boundary_clear hfetched, execIr]
    exact (congrArg (exec · _) hword).trans ht
  · rw [State.inBounds, hf.config, hpc']
    exact hin
  · rw [hmem, hpc']
    exact hword
  · rw [hf.flags]
    exact htaken

/-- Settles O43, by induction on the bound. -/
theorem takenSelfBranchHangs : Obligations.TakenSelfBranchHangs := by
  intro s n z p hp hclear hin hword htaken bound
  have h : SelfBranch n z p s := ⟨hp, hclear, hin, hword, htaken⟩
  clear hp hclear hin hword htaken
  induction bound generalizing s with
  | zero => rfl
  | succ bound ih =>
    obtain ⟨t, ht, hresult, hself⟩ := h.pass
    simp only [run, ht, hresult, if_true, afterInstruction, hself.clear]
    exact ih t hself

/-! ## RUN as repeated passes -/

/-- One pass of a RUN, by how it ends. -/
theorem run_of_pass {bound : Nat} (h : Pass decode s t) :
    run (bound + 1) s =
      if t.result = some .stepped then afterInstruction (run bound) t else some (step s) := by
  have hc : cycle s = .next t := (cycle_eq_cycleOf s).trans h.cycleOf_eq
  have hstep : step s = returnToHost (.next t) := by rw [step, hc]
  rw [run, hc, hstep]

theorem afterInstruction_clear {rest : State → Option Answer} (h : t.stopRequest = none) :
    afterInstruction rest t = rest t := by
  simp [afterInstruction, h]

/-- Settles O59: RUN looks at the result of its first pass, and where the request makes that pass end is known. -/
theorem runIsStepAfterStep : Obligations.RunIsStepAfterStep := by
  intro s u bound hstep
  obtain ⟨v, hv, rfl⟩ := step_eq_next_iff.mp hstep
  obtain ⟨hclear, hnot⟩ := pass_clear hv rfl
  rw [State.setStopRequest_self hclear]
  obtain ⟨t, ht⟩ := exists_pass decode s
  have hrun := run_of_pass (bound := bound) ht
  refine ⟨fun hresult => ?_, fun hresult => ⟨fun hr => ?_, fun k hr => ?_⟩⟩
  · have hne : t.result ≠ some .stepped := by
      obtain h | ⟨r, rfl⟩ := pass_stopped_or_same ht hv
      · rw [h]
        nofun
      · exact hresult
    rw [hrun, if_neg hne]
  · rw [State.setStopRequest_self hr] at hv
    rw [hrun, ht.unique hv, if_pos hresult, afterInstruction_clear hclear]
  · cases requested_of_pass hv hr ht with
    | stopped result clear _ count =>
      replace count : s.phase.checksLeft = t.phase.checksLeft + (k + 1) := count
      refine ⟨fun _ => ?_, fun h => by omega, fun h => by omega⟩
      have hs : step s = .next t := step_eq_next_iff.mpr ⟨t, ht, (State.setStopRequest_self clear).symm⟩
      exact ⟨t, hs, result, by rw [hrun, if_neg (by rw [result]; nofun), hs]⟩
    | ended j count =>
      replace count : k = s.phase.checksLeft + j := count hresult
      rw [hrun, if_pos (show (v.setStopRequest (some j)).result = _ from hresult)]
      refine ⟨fun h => by omega, fun h => ?_, fun h => ?_⟩
      · obtain rfl : j = 0 := by omega
        refine ⟨?_, (pass_returns hv).2 hnot⟩
        have hself : (v.setStopRequest (some 0)).setStopRequest none = v := State.setStopRequest_self hclear
        simp only [afterInstruction, State.setStopRequest_stopRequest, hself]
      · obtain ⟨i, rfl⟩ : ∃ i, j = i + 1 := ⟨j - 1, by omega⟩
        obtain rfl : i = k - s.phase.checksLeft - 1 := by omega
        rfl

end Sys2Proof.Proofs.Runs
end

section
/-! SUPPORT. Creation, `reset()`, the memory accessor and LOAD (10_state.md sections 7 and 8, 70_reset_and_hazards.md
section 2): what a text's tokens are, which of them are legal, and what LOAD writes or refuses. -/

namespace Sys2Proof.Proofs.HostCommands

open Sys2Proof Sys2Proof.Machine Sys2Proof.Proofs.Passes

/-! ## Creation and `reset()` -/

/-- Settles O52: an empty memory is canonical, and creation stands at FETCH. -/
theorem creationIsLegalAndInFlight : Obligations.CreationIsLegalAndInFlight :=
  fun _ hc => ⟨⟨hc, Memory.wf_nil, rfl⟩, inFlight_of_fetch rfl⟩

/-- Settles O53, field by field. -/
theorem creationGivesTheResetValues : Obligations.CreationGivesTheResetValues := by
  rintro c s rfl
  refine ⟨fun i => ?_, rfl, rfl, rfl, rfl, rfl, rfl, rfl, rfl, rfl, rfl, rfl, rfl, rfl, fun _ => rfl⟩
  exact Vector.getElem_replicate i.isLt

/-- Settles O54: both clauses are the command's definition. -/
theorem resetCommandKeepsMemory : Obligations.ResetCommandKeepsMemory := fun _ => ⟨rfl, rfl⟩

/-- Settles O58, by the accessor's own bound. -/
theorem hostMemoryWriteIsBoundsChecked : Obligations.HostMemoryWriteIsBoundsChecked := by
  intro k v s
  refine ⟨fun hout => ?_, fun hin => ?_⟩
  · have hn : ¬ k < s.config.memSize := Nat.not_lt.mpr hout
    exact ⟨if_neg hn, if_neg hn⟩
  · refine ⟨s.setMemory (s.memory.write k v), if_pos hin, ?_, fun j hj => ?_⟩
    · rw [hostReadMemory, State.setMemory_config, if_pos hin, State.setMemory_memory, Memory.read_write, if_pos rfl]
    · rw [hostReadMemory, State.setMemory_config, State.setMemory_memory, Memory.read_write, if_neg hj, hostReadMemory]

/-! ## Tokens -/

theorem tokensFrom_of_no_separator {text : List Char} (h : ∀ c ∈ text, isSeparator c = false) (token : List Char) :
    tokensFrom token text = if token.reverse ++ text = [] then [] else [token.reverse ++ text] := by
  induction text generalizing token with
  | nil => simp [tokensFrom]
  | cons c text ih =>
    obtain ⟨hc, htext⟩ := List.forall_mem_cons.mp h
    rw [tokensFrom, hc, if_neg Bool.false_ne_true, ih htext]
    simp

theorem tokensFrom_append_separator {c : Char} (hc : isSeparator c = true) (before after token : List Char) :
    tokensFrom token (before ++ c :: after) = tokensFrom token before ++ tokens after := by
  induction before generalizing token with
  | nil =>
    simp only [List.nil_append, tokensFrom, hc, if_true, tokens]
    split <;> rfl
  | cons b before ih =>
    simp only [List.cons_append, tokensFrom, ih]
    split
    · split <;> rfl
    · rfl

theorem isSeparator_iff (c : Char) : isSeparator c = true ↔ c.toNat ∈ [32, 9, 10, 11, 12, 13] := by
  have hspace : c = ' ' ↔ c.toNat = 32 := Char.toNat_inj.symm
  simp only [isSeparator, Bool.or_eq_true, beq_iff_eq, decide_eq_true_eq, hspace, List.mem_cons, List.not_mem_nil,
    or_false]
  omega

/-! ## Digits -/

theorem char_le_iff (a b : Char) : a ≤ b ↔ a.toNat ≤ b.toNat := Iff.rfl

/-- A digit is a character of one of the two rows, at its value. -/
theorem hexDigit_iff (c : Char) (d : Nat) : hexDigit c = some d ↔
    "0123456789abcdef".toList[d]? = some c ∨ "0123456789ABCDEF".toList[d]? = some c := by
  constructor
  · intro h
    have hc : Char.ofNat c.toNat = c := Char.ofNat_toNat c
    simp only [hexDigit, char_le_iff, Char.reduceToNat] at h
    generalize c.toNat = n at h hc
    subst hc
    split_ifs at h with hr hr hr <;> cases h
    all_goals
      obtain ⟨hlow, hhigh⟩ := hr
      interval_cases n <;> decide
  · intro h
    have hd : d < 16 :=
      h.elim (fun h => (List.getElem?_eq_some_iff.mp h).1) fun h => (List.getElem?_eq_some_iff.mp h).1
    rcases h with h | h <;> interval_cases d <;> cases h <;> rfl

/-! ## Legal tokens -/

/-- The value of a token's digits is their base-16 sum. -/
theorem hexValue_eq_some_iff (token : List Char) (value n : Nat) : hexValue value token = some n ↔
    ∃ digits : List Nat, token.map hexDigit = digits.map some ∧
      digits.foldl (fun value d => 16 * value + d) value = n := by
  induction token generalizing value with
  | nil => simp [hexValue]
  | cons c token ih =>
    rw [hexValue, List.map_cons]
    cases hexDigit c with
    | none =>
      refine ⟨nofun, ?_⟩
      rintro ⟨_ | ⟨d, digits⟩, h, _⟩ <;> cases h
    | some d =>
      simp only [ih]
      constructor
      · rintro ⟨digits, h, hsum⟩
        exact ⟨d :: digits, by rw [h, List.map_cons], hsum⟩
      · rintro ⟨_ | ⟨e, digits⟩, h, hsum⟩
        · cases h
        · obtain ⟨he, htoken⟩ := List.cons.inj h
          cases he
          exact ⟨digits, htoken, hsum⟩

theorem tokenWord_eq_some_iff (token : List Char) (w : Word) : tokenWord token = some w ↔
    token ≠ [] ∧ hexValue 0 token = some w.toNat := by
  cases token with
  | nil => simp [tokenWord]
  | cons c digits =>
    simp only [tokenWord, ne_eq, reduceCtorEq, not_false_eq_true, true_and]
    cases hexValue 0 (c :: digits) with
    | none => simp
    | some v =>
      have hw := w.isLt
      simp only [Option.some.injEq]
      constructor
      · intro h
        split at h
        · cases h
          exact (Nat.mod_eq_of_lt (by omega)).symm
        · cases h
      · rintro rfl
        rw [if_pos (by omega), BitVec.ofNat_toNat, BitVec.setWidth_eq]

/-- Settles O55: a separator ends the token being read; a token is legal when each character is a digit and the sum
fits. -/
theorem imageTokensAreSeparatedHexadecimalWords : Obligations.ImageTokensAreSeparatedHexadecimalWords := by
  refine ⟨isSeparator_iff, fun text h => ?_, fun before after c hc => ?_, hexDigit_iff, fun token w => ?_⟩
  · exact tokensFrom_of_no_separator h []
  · exact tokensFrom_append_separator hc before after []
  · rw [tokenWord_eq_some_iff, hexValue_eq_some_iff]

/-! ## LOAD -/

/-- The words an image is read as: one for each token, all within memory. -/
theorem imageWords_ok {size index : Nat} {toks : List (List Char)} {ws : List Word}
    (h : imageWords size index toks = .ok ws) :
    toks.map tokenWord = ws.map some ∧ (toks = [] ∨ index + toks.length ≤ size) := by
  induction toks generalizing index ws with
  | nil =>
    cases h
    exact ⟨rfl, .inl rfl⟩
  | cons token rest ih =>
    rw [imageWords] at h
    cases hw : tokenWord token with
    | none => rw [hw] at h; cases h
    | some w =>
      rw [hw] at h
      by_cases hi : index < size
      · cases hrest : imageWords size (index + 1) rest with
        | error bad => simp [hi, hrest] at h
        | ok vs =>
          simp only [hi, hrest, if_true, Except.ok.injEq] at h
          subst h
          obtain ⟨hmap, hlen⟩ := ih hrest
          refine ⟨by rw [List.map_cons, hw, hmap, List.map_cons], .inr ?_⟩
          rw [List.length_cons]
          rcases hlen with rfl | hlen
          · exact hi
          · omega
      · simp [hi] at h

/-- The first bad token an image is refused for. -/
theorem imageWords_error {size index k : Nat} {toks : List (List Char)} (h : imageWords size index toks = .error k) :
    ∃ j, k = index + j ∧ (∃ token, toks[j]? = some token ∧ (tokenWord token = none ∨ size ≤ k)) ∧
      ∀ i token, i < j → toks[i]? = some token → (tokenWord token).isSome = true ∧ index + i < size := by
  induction toks generalizing index with
  | nil => cases h
  | cons token rest ih =>
    rw [imageWords] at h
    cases hw : tokenWord token with
    | none =>
      rw [hw] at h
      cases h
      exact ⟨0, rfl, ⟨token, rfl, .inl hw⟩, fun i _ hi => absurd hi (Nat.not_lt_zero i)⟩
    | some w =>
      rw [hw] at h
      by_cases hi : index < size
      · cases hrest : imageWords size (index + 1) rest with
        | ok vs => simp [hi, hrest] at h
        | error bad =>
          simp only [hi, hrest, if_true, Except.error.injEq] at h
          subst h
          obtain ⟨j, hj, hbad, hgood⟩ := ih hrest
          refine ⟨j + 1, by omega, hbad, fun i t hij ht => ?_⟩
          cases i with
          | zero =>
            cases ht
            exact ⟨by rw [hw]; rfl, hi⟩
          | succ i =>
            obtain ⟨hsome, hlt⟩ := hgood i t (Nat.lt_of_succ_lt_succ hij) ht
            exact ⟨hsome, by omega⟩
      · simp only [hi, if_false, Except.error.injEq] at h
        subst h
        exact ⟨0, rfl, ⟨token, rfl, .inr (Nat.not_lt.mp hi)⟩, fun i _ hi => absurd hi (Nat.not_lt_zero i)⟩

/-- What sequential writes leave in a cell (R246). -/
theorem read_writeWords (m : Memory) (index : Nat) (ws : List Word) (a : Nat) :
    (m.writeWords index ws).read a = if a < index then m.read a else (ws[a - index]?).getD (m.read a) := by
  induction ws generalizing m index with
  | nil => simp [Memory.writeWords]
  | cons w ws ih =>
    rw [Memory.writeWords, ih, Memory.read_write]
    rcases Nat.lt_trichotomy a index with hlt | rfl | hgt
    · simp [hlt, hlt.ne, Nat.lt_succ_of_lt hlt]
    · simp
    · have hsub : a - index = a - (index + 1) + 1 := by omega
      rw [if_neg (by omega), if_neg (by omega), if_neg (by omega), hsub, List.getElem?_cons_succ]

/-- Settles O56: the words written are those of the tokens, from cell 0 up. -/
theorem loadWritesTheImageFromZero : Obligations.LoadWritesTheImageFromZero := by
  intro filename text s t h
  rw [load] at h
  cases hw : imageWords s.config.memSize 0 (tokens text) with
  | error index => simp [hw] at h
  | ok ws =>
    simp only [hw, Prod.mk.injEq, true_and] at h
    subst h
    obtain ⟨hmap, hlen⟩ := imageWords_ok hw
    have hread (k : Nat) : (s.memory.writeWords 0 ws).read k = (ws[k]?).getD (s.memory.read k) := by
      rw [read_writeWords, if_neg (Nat.not_lt_zero k), Nat.sub_zero]
    have hget (k : Nat) : ((tokens text)[k]?).map tokenWord = (ws[k]?).map some := by
      rw [← List.getElem?_map, hmap, List.getElem?_map]
    refine ⟨rfl, ?_, fun k => ⟨fun token hk => ?_, fun hk => ?_⟩⟩
    · rcases hlen with hnil | hlen
      · rw [hnil]
        exact Nat.zero_le _
      · rwa [Nat.zero_add] at hlen
    · have hword := hget k
      rw [hk] at hword
      obtain ⟨w, hw, htoken⟩ := Option.map_eq_some_iff.mp hword.symm
      rw [State.setMemory_memory, hread, hw, Option.getD_some]
      exact htoken.symm
    · have hnone := hget k
      rw [hk] at hnone
      rw [State.setMemory_memory, hread, Option.map_eq_none_iff.mp hnone.symm, Option.getD_none]

/-- Settles O57: nothing is written before the whole image has been read. -/
theorem failedLoadChangesNothing : Obligations.FailedLoadChangesNothing := by
  intro filename text s
  refine ⟨rfl, fun f t h => ?_⟩
  rw [load] at h
  cases hw : imageWords s.config.memSize 0 (tokens text) with
  | ok ws => simp [hw] at h
  | error index =>
    simp only [hw, Prod.mk.injEq, Reply.failed.injEq] at h
    obtain ⟨rfl, rfl⟩ := h
    obtain ⟨j, rfl, hbad, hgood⟩ := imageWords_error hw
    rw [Nat.zero_add] at hbad ⊢
    refine ⟨rfl, j, rfl, hbad, fun i token hi ht => ?_⟩
    obtain ⟨hsome, hlt⟩ := hgood i token hi ht
    exact ⟨hsome, by omega⟩

end Sys2Proof.Proofs.HostCommands
end
